-- ==== Sys2Proof/Word.lean ====
section
/-! DEFINITION. The widths of the hardware (00_scope.md R4): a word has 32 bits, a byte 8. All values are
unsigned and `+` on them wraps (R6). -/

namespace Sys2Proof

/-- A chaining word, an accumulator, a message word or a round constant (`WORD_W`, R4). -/
abbrev Word := BitVec 32

/-- A byte of a message, of the buffer or of the digest. -/
abbrev Byte := BitVec 8

end Sys2Proof
end

