-- ==== Sys2Proof/Config.lean ====
section
/-! DEFINITION. What is fixed for the machine and what the spec leaves open (00_scope.md R4, R5). The numeric
tables stand in Machine/Tables.lean. -/

namespace Sys2Proof.Config

/-- `BLOCK_BYTES` (R4). -/
abbrev blockBytes : Nat := 64

/-- `N_STEPS` (R4). -/
abbrev nSteps : Nat := 64

/-- FREE VALUE (log entry 4). The contents of an accumulator outside COMPRESS (10_state.md R42, R48:
"unspecified"): the n-th such content. No body, so nothing is known of it. -/
opaque freeWord : Nat → BitVec 32

/-- FREE VALUE (log entry 4). The content of STEP outside COMPRESS (10_state.md R44, R48): any value the
register can have, 0 to 64 ("Values 65 to 127 never occur"). -/
opaque freeStep : Nat → Fin 65

end Sys2Proof.Config
end

