-- ==== Sys2Proof/Machine/Tables.lean ====
section
/-! DEFINITION. The constants of the hardware: the initialisation vector (10_state.md R32) and the tables K, S,
PERM (42_block_processor.md R160 to R162). They are not state (10_state.md R46). Log entry 14. -/

namespace Sys2Proof.Machine

/-- Reset value of `A` (10_state.md R32). -/
def ivA : Word := 0x67452301
/-- Reset value of `B` (10_state.md R32). -/
def ivB : Word := 0xefcdab89
/-- Reset value of `C` (10_state.md R32). -/
def ivC : Word := 0x98badcfe
/-- Reset value of `D` (10_state.md R32). -/
def ivD : Word := 0x10325476

/-- `K[0..15]` (42_block_processor.md R160). -/
def kRound1 : List Word :=
  [0xd76aa478, 0xe8c7b756, 0x242070db, 0xc1bdceee,
   0xf57c0faf, 0x4787c62a, 0xa8304613, 0xfd469501,
   0x698098d8, 0x8b44f7af, 0xffff5bb1, 0x895cd7be,
   0x6b901122, 0xfd987193, 0xa679438e, 0x49b40821]

/-- `K[16..31]` (42_block_processor.md R160). -/
def kRound2 : List Word :=
  [0xf61e2562, 0xc040b340, 0x265e5a51, 0xe9b6c7aa,
   0xd62f105d, 0x02441453, 0xd8a1e681, 0xe7d3fbc8,
   0x21e1cde6, 0xc33707d6, 0xf4d50d87, 0x455a14ed,
   0xa9e3e905, 0xfcefa3f8, 0x676f02d9, 0x8d2a4c8a]

/-- `K[32..47]` (42_block_processor.md R160). -/
def kRound3 : List Word :=
  [0xfffa3942, 0x8771f681, 0x6d9d6122, 0xfde5380c,
   0xa4beea44, 0x4bdecfa9, 0xf6bb4b60, 0xbebfbc70,
   0x289b7ec6, 0xeaa127fa, 0xd4ef3085, 0x04881d05,
   0xd9d4d039, 0xe6db99e5, 0x1fa27cf8, 0xc4ac5665]

/-- `K[48..63]` (42_block_processor.md R160). -/
def kRound4 : List Word :=
  [0xf4292244, 0x432aff97, 0xab9423a7, 0xfc93a039,
   0x655b59c3, 0x8f0ccc92, 0xffeff47d, 0x85845dd1,
   0x6fa87e4f, 0xfe2ce6e0, 0xa3014314, 0x4e0811a1,
   0xf7537e82, 0xbd3af235, 0x2ad7d2bb, 0xeb86d391]

/-- `K[0..63]`, the round constants (42_block_processor.md R160). -/
def kTable : List Word := kRound1 ++ kRound2 ++ kRound3 ++ kRound4

/-- `K[i]`. -/
def kConst (i : Nat) : Word := kTable.getD i 0

/-- The four rotation amounts of a round (0 to 3), by `i mod 4` (42_block_processor.md R161). -/
def sRow (round : Nat) : List Nat :=
  match round with
  | 0 => [7, 12, 17, 22]
  | 1 => [5, 9, 14, 20]
  | 2 => [4, 11, 16, 23]
  | _ => [6, 10, 15, 21]

/-- `S[i]`, the rotation amount: "the entry at column `i mod 4` of the row of round `i div 16`"
(42_block_processor.md R161). -/
def sAmount (i : Nat) : Nat := (sRow (i / 16)).getD (i % 4) 0

/-- `PERM[i]`, the message-word index (42_block_processor.md R162). -/
def perm (i : Nat) : BitVec 4 :=
  match i / 16 with
  | 0 => BitVec.ofNat 4 (i % 16)
  | 1 => BitVec.ofNat 4 ((5 * (i % 16) + 1) % 16)
  | 2 => BitVec.ofNat 4 ((3 * (i % 16) + 5) % 16)
  | _ => BitVec.ofNat 4 ((7 * (i % 16)) % 16)

end Sys2Proof.Machine
end

