-- ==== Sys2Proof/Machine/State.lean ====
section
/-! DEFINITION. The state of one instance, as plain data (10_state.md R30), its value at reset (R48), and the
reasons a step can stop. -/

namespace Sys2Proof.Machine

/-- The chaining words `A`, `B`, `C`, `D`, also `H[0]` to `H[3]` (10_state.md R31). -/
structure Chain where
  A : Word
  B : Word
  C : Word
  D : Word
  deriving DecidableEq, Repr

/-- The working accumulators `a`, `b`, `c`, `d`, also `w[0]` to `w[3]` (10_state.md R42). -/
structure Accum where
  a : Word
  b : Word
  c : Word
  d : Word
  deriving DecidableEq, Repr

/-- The name of an accumulator: `w[0]` to `w[3]` are `a` to `d` (00_scope.md section 5). -/
inductive WReg where
  | a
  | b
  | c
  | d
  deriving DecidableEq, Repr

/-- The block buffer BUF (10_state.md R37; 20_memory.md R60): the bytes that are not 0x00, with their indices
0 to 63 strictly rising. An index that is not listed reads as 0x00, BUF's reset contents (10_state.md R39).
Log entry 12. -/
abbrev Memory := List Host.Cell

/-- `PHASE` (10_state.md R40). -/
inductive Phase where
  /-- 0: a message is open, UPDATE and FINALIZE are legal. -/
  | absorb
  /-- 1: FINALIZE has completed, the chaining words hold the digest, only RESET is legal. -/
  | done
  deriving DecidableEq, Repr

/-- `ERR_CAUSE`, the four values of its two bits (60_exceptions.md R315). -/
inductive Cause where
  /-- 0: no misuse since reset. -/
  | noCause
  /-- 1: UPDATE in phase DONE (R311). -/
  | updateAfterFinalize
  /-- 2: FINALIZE in phase DONE (R312). -/
  | finalizeTwice
  /-- 3: a reserved command word (R314). -/
  | reservedOpcode
  deriving DecidableEq, Repr

/-- The architectural state of one instance: what the transaction level transforms (00_scope.md R13,
10_state.md R30). -/
structure Arch where
  /-- `A`, `B`, `C`, `D`. -/
  h : Chain
  /-- `CNT_LO`, bits 31 to 0 of the byte counter (10_state.md R33). -/
  cntLo : Word
  /-- `CNT_HI`, bits 63 to 32 of the byte counter (10_state.md R33). -/
  cntHi : Word
  /-- `BUF[0..63]`. -/
  buf : Memory
  /-- `PHASE`. -/
  phase : Phase
  /-- `ERR`, sticky (10_state.md R41). -/
  err : Bool
  /-- `ERR_CAUSE` (10_state.md R41). -/
  cause : Cause
  deriving DecidableEq, Repr

/-- Which command is in progress and where in it: "that record is the model's own" (10_state.md R45), with the
sub-phases of 44_finalize.md R277. WRITE and PAD1 happen in the transition that accepts the command (log
entry 6). -/
inductive Activity where
  /-- No command in progress: `cmd_ready = 1`. -/
  | idle
  /-- COMPU, the COMPRESS of an UPDATE. -/
  | compU
  /-- COMP1, the first COMPRESS of a two-block FINALIZE. -/
  | comp1
  /-- PAD2, about to clear the fresh block and write the length field. -/
  | pad2
  /-- COMPT, the terminal COMPRESS of a FINALIZE. -/
  | compT
  deriving DecidableEq, Repr

/-- What the host drives at one rising edge of `clk` (30_encoding.md R90). -/
structure PortIn where
  rst : Bool
  cmdValid : Bool
  cmd : BitVec 10
  deriving DecidableEq, Repr

/-- The whole state of the model. -/
structure State where
  /-- The architectural state. -/
  arch : Arch
  /-- `a`, `b`, `c`, `d`, live only inside COMPRESS (10_state.md R42). -/
  acc : Accum
  /-- `STEP`, live only inside COMPRESS (10_state.md R44). -/
  stepReg : BitVec 7
  /-- The sub-phase of the command in progress (10_state.md R45). -/
  activity : Activity
  /-- The port samples of the coming edges, oldest first (log entry 2). The model's own field. -/
  inputs : List PortIn
  /-- The number of free values drawn so far (log entry 4). The model's own field. -/
  fresh : Nat
  deriving DecidableEq, Repr

/-- Why the machine stops with a fault. -/
inductive Fault where
  /-- Raised by `step` when a COMPRESS is in progress and STEP is 65 to 127, which "never occur" (10_state.md
  R44). Safe: no state that meets the invariant raises it (log entry 8). -/
  | stepOutOfRange
  deriving DecidableEq, Repr

/-- Why an instruction is refused. -/
inductive Refusal where
  /-- Raised by `exec` for an instruction that has no meaning yet. Safe. No arm raises it. -/
  | notModelled (mnemonic : String)
  deriving DecidableEq, Repr

/-- The initialisation vector (10_state.md R32). -/
def Chain.iv : Chain := ⟨ivA, ivB, ivC, ivD⟩

/-- The architectural state after a reset (10_state.md R48). -/
def Arch.reset : Arch where
  h := Chain.iv
  cntLo := 0
  cntHi := 0
  buf := []
  phase := .absorb
  err := false
  cause := .noCause

/-- The machine right after reset (10_state.md R48). The accumulators and STEP are zero by DESIGN CHOICE (log
entry 3: the spec gives no value); no input is waiting (log entry 2) and no free value has been drawn (log
entry 4). -/
def State.reset : State where
  arch := Arch.reset
  acc := ⟨0, 0, 0, 0⟩
  stepReg := 0
  activity := .idle
  inputs := []
  fresh := 0

end Sys2Proof.Machine
end

