-- ==== Sys2Proof/Machine/Operands.lean ====
section
/-! DEFINITION. The primitives of the rules on values: rotation, mixing functions, byte order, the halves of
the counter (00_scope.md R6 to R11, 42_block_processor.md R154 to R157), and the names of the accumulators
(R158). `add32` is `+` on `Word` (R6). -/

namespace Sys2Proof.Machine

/-- `rotl32(x, s)`, for `1 <= s <= 31` (00_scope.md R7). -/
def rotl32 (x : Word) (s : Nat) : Word := (x <<< s) ||| (x >>> (32 - s))

/-- `E`, round 1 (42_block_processor.md R154). -/
def mixE (x y z : Word) : Word := z ^^^ (x &&& (y ^^^ z))

/-- `G`, round 2 (42_block_processor.md R155). -/
def mixG (x y z : Word) : Word := y ^^^ (z &&& (x ^^^ y))

/-- `H`, round 3 (42_block_processor.md R156). -/
def mixH (x y z : Word) : Word := x ^^^ y ^^^ z

/-- `I`, round 4 (42_block_processor.md R157). -/
def mixI (x y z : Word) : Word := y ^^^ (x ||| ~~~z)

/-- Byte `j` of `le32_bytes(v)`, `v[8j+7 : 8j]` (00_scope.md R9). -/
def le32Byte (v : Word) (j : Nat) : Byte := v.extractLsb' (8 * j) 8

/-- `le32_bytes(v)`, least significant byte first (00_scope.md R9). -/
def le32Bytes (v : Word) : List Byte := [le32Byte v 0, le32Byte v 1, le32Byte v 2, le32Byte v 3]

/-- `le32_word([b0, b1, b2, b3])` (00_scope.md R9). -/
def le32Word (b0 b1 b2 b3 : Byte) : Word :=
  b0.setWidth 32 ||| (b1.setWidth 32 <<< 8) ||| (b2.setWidth 32 <<< 16) ||| (b3.setWidth 32 <<< 24)

/-- The accumulator after `r` in the cyclic order `a`, `b`, `c`, `d`: `w[(j+1) mod 4]` (R158). -/
def WReg.next : WReg → WReg
  | .a => .b
  | .b => .c
  | .c => .d
  | .d => .a

/-- `w[j]` for `j` in 0 to 3 (00_scope.md section 5). -/
def WReg.ofIndex : Nat → WReg
  | 0 => .a
  | 1 => .b
  | 2 => .c
  | _ => .d

/-- Read an accumulator. -/
def Accum.get (w : Accum) : WReg → Word
  | .a => w.a
  | .b => w.b
  | .c => w.c
  | .d => w.d

/-- Write an accumulator; "The other three accumulators keep their values" (R158). -/
def Accum.set (w : Accum) (r : WReg) (v : Word) : Accum :=
  match r with
  | .a => { w with a := v }
  | .b => { w with b := v }
  | .c => { w with c := v }
  | .d => { w with d := v }

/-- The accumulators as loaded from the chaining words (42_block_processor.md R152). -/
def Accum.ofChain (h : Chain) : Accum := ⟨h.A, h.B, h.C, h.D⟩

/-- The feed-forward sum, word by word, "The pairing is by name" (42_block_processor.md R164). -/
def Chain.addAccum (h : Chain) (w : Accum) : Chain := ⟨h.A + w.a, h.B + w.b, h.C + w.c, h.D + w.d⟩

/-- The carry of `add64` out of the low half (00_scope.md R10). -/
def carryOut (lo y : Word) : Bool := decide (2 ^ 32 ≤ lo.toNat + y.toNat)

/-- The low half of `add64` (00_scope.md R10). -/
def add64Lo (lo yLo : Word) : Word := lo + yLo

/-- The high half of `add64` (00_scope.md R10). -/
def add64Hi (lo hi yLo yHi : Word) : Word := hi + yHi + (if carryOut lo yLo then 1 else 0)

/-- `L_LO`, the low half of `shl3_64` (00_scope.md R11). -/
def shl3Lo (lo : Word) : Word := lo <<< 3

/-- `L_HI`, the high half of `shl3_64` (00_scope.md R11). -/
def shl3Hi (lo hi : Word) : Word := (hi <<< 3) ||| (lo >>> 29)

end Sys2Proof.Machine
end

