-- ==== Sys2Proof/Machine/Flags.lean ====
section
/-! DEFINITION. The flags as bits, and the values the rules derive from the counter (10_state.md R35, R36, R40,
R41; 44_finalize.md R272). -/

namespace Sys2Proof.Machine

/-- `PHASE` as its bit (10_state.md R40). -/
def Phase.bit : Phase → Bool
  | .absorb => false
  | .done => true

/-- `ERR_CAUSE` as its two bits (60_exceptions.md R315). -/
def Cause.code : Cause → BitVec 2
  | .noCause => 0
  | .updateAfterFinalize => 1
  | .finalizeTwice => 2
  | .reservedOpcode => 3

/-- `CNT = CNT_HI : CNT_LO` (10_state.md R33, R35). -/
def Arch.cnt (a : Arch) : BitVec 64 := a.cntHi ++ a.cntLo

/-- `used = CNT_LO[5:0]`, the number of valid bytes of the buffer (10_state.md R36). -/
def Arch.used (a : Arch) : BitVec 6 := a.cntLo.extractLsb' 0 6

/-- `free = 63 - used` (44_finalize.md R270, R272). -/
def Arch.free (a : Arch) : Nat := 63 - a.used.toNat

/-- The two-block path is taken: `free < 8` (44_finalize.md R272). -/
def Arch.twoBlocks (a : Arch) : Bool := decide (a.free < 8)

/-- `ERR = 1` if and only if `ERR_CAUSE` is not 0 (60_exceptions.md R315). -/
def Arch.errAgrees (a : Arch) : Bool := a.err == (a.cause != .noCause)

/-- A command is in progress: `cmd_ready = 0` (30_encoding.md R91). -/
def State.busy (s : State) : Bool := s.activity != .idle

/-- `cmd_ready` (30_encoding.md R91). -/
def State.ready (s : State) : Bool := s.activity == .idle

end Sys2Proof.Machine
end

