-- ==== Sys2Proof/Machine/Ops.lean ====
section
/-! DEFINITION. The operations the meanings share: the buffer (20_memory.md R63, R64), the misuse entry
(60_exceptions.md R313), the counter, the padding (44_finalize.md R271 to R275), reset, and the start, the step
and the end of a COMPRESS. -/

namespace Sys2Proof.Machine

/-! ### The buffer -/

/-- The byte listed at an index, 0x00 where none is (log entry 12). -/
def cellAt : Memory → Nat → Byte
  | [], _ => 0
  | (b, v) :: rest, j => if j = b then v else cellAt rest j

/-- Put a byte at an index and keep the canonical form: a byte 0x00 is not listed. -/
def putCell : Memory → Nat → Byte → Memory
  | [], j, x => if x = 0 then [] else [(j, x)]
  | (b, v) :: rest, j, x =>
    if j < b then (if x = 0 then (b, v) :: rest else (j, x) :: (b, v) :: rest)
    else if j = b then (if x = 0 then rest else (j, x) :: rest)
    else (b, v) :: putCell rest j x

/-- The canonical form of a buffer whose indices are `lo` or more. -/
def wfFrom (lo : Nat) : Memory → Bool
  | [] => true
  | (b, v) :: rest => decide (lo ≤ b) && decide (b < 64) && v != 0 && wfFrom (b + 1) rest

/-- The canonical form: indices strictly rising and below 64, no byte 0x00 listed (log entry 12). -/
def Memory.wf (m : Memory) : Bool := wfFrom 0 m

/-- `MemRead(addr, 1)` (20_memory.md R63). -/
def memRead1 (m : Memory) (addr : BitVec 6) : Byte := cellAt m addr.toNat

/-- `MemWrite(addr, 1, v)` (20_memory.md R64). -/
def memWrite1 (m : Memory) (addr : BitVec 6) (v : Byte) : Memory := putCell m addr.toNat v

/-- The address of byte `j` of the word at word index `k`: `4k + j` (20_memory.md R67, R72). -/
def wordAddr (k : BitVec 4) (j : Nat) : BitVec 6 := BitVec.ofNat 6 (4 * k.toNat + j)

/-- `MemRead(4k, 4)`, the message word `M[k]` (20_memory.md R63; 42_block_processor.md R153). -/
def memRead4 (m : Memory) (k : BitVec 4) : Word :=
  le32Word (memRead1 m (wordAddr k 0)) (memRead1 m (wordAddr k 1)) (memRead1 m (wordAddr k 2))
    (memRead1 m (wordAddr k 3))

/-- `MemWrite(4k, 4, v)` (20_memory.md R64). -/
def memWrite4 (m : Memory) (k : BitVec 4) (v : Word) : Memory :=
  memWrite1 (memWrite1 (memWrite1 (memWrite1 m (wordAddr k 0) (le32Byte v 0)) (wordAddr k 1) (le32Byte v 1))
    (wordAddr k 2) (le32Byte v 2)) (wordAddr k 3) (le32Byte v 3)

/-- `for j in lo .. lo+n-1: BUF[j] <- 0`. -/
def zeroCount (m : Memory) (lo : Nat) : Nat → Memory
  | 0 => m
  | n + 1 => memWrite1 (zeroCount m lo n) (BitVec.ofNat 6 (lo + n)) 0

/-- `for j in lo .. hi: BUF[j] <- 0`, for `hi <= 63`; empty when `hi < lo` (00_scope.md section 5). -/
def zeroFill (m : Memory) (lo hi : Nat) : Memory := zeroCount m lo (hi + 1 - lo)

/-- `for j in 0 .. 63: BUF[j] <- 0`: the all-zero buffer, in which nothing is listed. -/
def clearBuf : Memory := []

/-! ### Misuse: the one exceptional entry. There is no return from it (60_exceptions.md R319). -/

/-- `raise Misuse(cause)` (60_exceptions.md R313): the first cause is kept, nothing else changes. -/
def Arch.raiseMisuse (a : Arch) (cause : Cause) : Arch :=
  if a.err then a else { a with err := true, cause := cause }

/-! ### The counter and the byte write of an UPDATE -/

/-- `CNT <- add64(CNT, y)` on the halves (00_scope.md R10). -/
def Arch.addCnt (a : Arch) (yLo yHi : Word) : Arch :=
  { a with cntLo := add64Lo a.cntLo yLo, cntHi := add64Hi a.cntLo a.cntHi yLo yHi }

/-- The first part of `ABSORB(x)` (41_update.md R131), the sub-phase WRITE (44_finalize.md R277):
`BUF[used] <- x`, `CNT <- add64(CNT, 1)`. -/
def Arch.writeByte (a : Arch) (x : Byte) : Arch :=
  { a.addCnt 1 0 with buf := memWrite1 a.buf a.used x }

/-! ### Padding -/

/-- `MemWrite(56, 4, L[31:0])`, `MemWrite(60, 4, L[63:32])` with `L = shl3_64(CNT)` (44_finalize.md R275). -/
def Arch.writeLength (a : Arch) (m : Memory) : Memory :=
  memWrite4 (memWrite4 m 14 (shl3Lo a.cntLo)) 15 (shl3Hi a.cntLo a.cntHi)

/-- The termination byte (44_finalize.md R271): `BUF[used] <- 0x80`. -/
def Arch.terminated (a : Arch) : Memory := memWrite1 a.buf a.used 0x80

/-- PAD1 of the one-block path (44_finalize.md R271, R274, R275). -/
def Arch.padOne (a : Arch) : Arch :=
  { a with buf := a.writeLength (zeroFill a.terminated (a.used.toNat + 1) 55) }

/-- PAD1 of the two-block path (44_finalize.md R271, R273). -/
def Arch.padFirst (a : Arch) : Arch :=
  { a with buf := zeroFill a.terminated (a.used.toNat + 1) 63 }

/-- PAD2 of the two-block path: the fresh all-zero block and the length field (44_finalize.md R273, R275). -/
def Arch.padFresh (a : Arch) : Arch :=
  { a with buf := a.writeLength clearBuf }

/-- The feed-forward on the chaining words (42_block_processor.md R164). -/
def Arch.feedForward (a : Arch) (w : Accum) : Arch := { a with h := a.h.addAccum w }

/-! ### The sequencer -/

/-- Apply an operation to the architectural state. -/
def State.mapArch (s : State) (f : Arch → Arch) : State := { s with arch := f s.arch }

/-- The accumulators and STEP outside COMPRESS: free values, each time new ones (10_state.md R42, R44, R48;
log entry 4). -/
def State.dropSequencer (s : State) : State :=
  { s with
    acc := ⟨Config.freeWord (4 * s.fresh), Config.freeWord (4 * s.fresh + 1),
      Config.freeWord (4 * s.fresh + 2), Config.freeWord (4 * s.fresh + 3)⟩
    stepReg := BitVec.ofNat 7 (Config.freeStep s.fresh).val
    fresh := s.fresh + 1 }

/-- RESET and the `rst` pin (40_reset.md R120, R121): the reset state of 10_state.md R48, whatever was in
progress. The coming port samples stay. -/
def State.toReset (s : State) : State :=
  { s.dropSequencer with arch := Arch.reset, activity := .idle }

/-- The start of a COMPRESS (42_block_processor.md R152): the accumulators are loaded from the chaining words
and `STEP <- 0`, in the transition that makes the block's last buffer write (70_reset_and_hazards.md R359). -/
def State.startCompress (s : State) (activity : Activity) : State :=
  { s with acc := Accum.ofChain s.arch.h, stepReg := 0, activity := activity }

/-- One step (42_block_processor.md R159) with its parameters written out as in 43_steps.md: the accumulator
written `x0` and, in cyclic order after it, `x1`, `x2`, `x3` (R158); `t = x0 + f(x1, x2, x3) + M[k] + const`;
`x0 <- x1 + rotl32(t, amount)`; `STEP <- next`. -/
def State.seqStep (s : State) (x0 : WReg) (f : Word → Word → Word → Word) (k : BitVec 4) (const : Word)
    (amount : Nat) (next : BitVec 7) : State :=
  let x1 := x0.next
  let x2 := x1.next
  let x3 := x2.next
  let t := s.acc.get x0 + f (s.acc.get x1) (s.acc.get x2) (s.acc.get x3) + memRead4 s.arch.buf k + const
  { s with acc := s.acc.set x0 (s.acc.get x1 + rotl32 t amount), stepReg := next }

/-- The end of a COMPRESS: "control returns to the command that invoked it" (43_steps.md R264). An UPDATE is
then complete (41_update.md R131); a two-block FINALIZE goes on with PAD2 (44_finalize.md R277); after the
terminal COMPRESS `PHASE <- 1` and the FINALIZE is complete (R279). With no COMPRESS in progress nothing is
returned to (log entry 9). -/
def State.endCompress (s : State) : State :=
  match s.activity with
  | .compU => { s.dropSequencer with activity := .idle }
  | .comp1 => { s.dropSequencer with activity := .pad2 }
  | .compT => { s.dropSequencer with activity := .idle, arch := { s.arch with phase := .done } }
  | .idle => s.dropSequencer
  | .pad2 => s.dropSequencer

/-- The transition PAD2 and the load of the terminal COMPRESS (44_finalize.md R277). -/
def State.runPad2 (s : State) : State := (s.mapArch Arch.padFresh).startCompress .compT

end Sys2Proof.Machine
end

