-- ==== Sys2Proof/Machine/Commands.lean ====
section
/-! DEFINITION. The meanings of the four command words, as the transition that accepts them
(40_reset.md, 41_update.md, 44_finalize.md, 60_exceptions.md). A command that needs a COMPRESS ends this
transition with the COMPRESS begun. Whether a command may be accepted (`cmd_ready = 1`) is decided by `step`
(log entry 9). -/

namespace Sys2Proof.Machine

/-- RESET (40_reset.md R120): legal in every phase; `data` is ignored. -/
def execReset (_data : Byte) (s : State) : Host.Outcome State Fault Refusal := .next s.toReset

/-- UPDATE x (41_update.md R130, R131): misuse cause 1 in phase DONE; else the byte is written and counted, and
when it was byte 63 the COMPRESS of the buffer begins (sub-phase COMPU). -/
def execUpdate (data : Byte) (s : State) : Host.Outcome State Fault Refusal :=
  match s.arch.phase with
  | .done => .next (s.mapArch (·.raiseMisuse .updateAfterFinalize))
  | .absorb =>
    if s.arch.used = 63 then .next ((s.mapArch (·.writeByte data)).startCompress .compU)
    else .next (s.mapArch (·.writeByte data))

/-- FINALIZE (44_finalize.md R270): misuse cause 2 in phase DONE; else PAD1 is written and its COMPRESS begins,
the first of two (COMP1) or the terminal one (COMPT). `data` is ignored. -/
def execFinalize (_data : Byte) (s : State) : Host.Outcome State Fault Refusal :=
  match s.arch.phase with
  | .done => .next (s.mapArch (·.raiseMisuse .finalizeTwice))
  | .absorb =>
    if s.arch.twoBlocks then .next ((s.mapArch Arch.padFirst).startCompress .comp1)
    else .next ((s.mapArch Arch.padOne).startCompress .compT)

/-- The reserved command word (30_encoding.md R96, 60_exceptions.md R314): misuse cause 3 in either phase, and
nothing else. -/
def execRsvd (_data : Byte) (s : State) : Host.Outcome State Fault Refusal :=
  .next (s.mapArch (·.raiseMisuse .reservedOpcode))

end Sys2Proof.Machine
end

