-- ==== Sys2Proof/Machine/FeedForward.lean ====
section
/-! DEFINITION. The meaning of FEEDFWD (43_steps.md R264). -/

namespace Sys2Proof.Machine

/-- FEEDFWD (43_steps.md R264): `A <- A + a`, `B <- B + b`, `C <- C + c`, `D <- D + d`; the COMPRESS is
complete and control returns to the command that invoked it; STEP and the accumulators are dead. -/
def execFeedfwd (s : State) : Host.Outcome State Fault Refusal :=
  .next (s.mapArch (·.feedForward s.acc)).endCompress

end Sys2Proof.Machine
end

