-- ==== Sys2Proof/Machine/Round1.lean ====
section
/-! DEFINITION. The meanings of the steps of round 1, each with the registers, the function, the message word,
the constant and the rotation amount that its rule of 43_steps.md writes out. -/

namespace Sys2Proof.Machine

/-- 43_steps.md R200: `a <- b + rotl32(a + E(b, c, d) + M[0] + 0xd76aa478, 7)`; `STEP <- 1`. -/
def execStep0 (s : State) : Host.Outcome State Fault Refusal :=
  .next (s.seqStep .a mixE 0 0xd76aa478 7 1)

/-- 43_steps.md R201: `d <- a + rotl32(d + E(a, b, c) + M[1] + 0xe8c7b756, 12)`; `STEP <- 2`. -/
def execStep1 (s : State) : Host.Outcome State Fault Refusal :=
  .next (s.seqStep .d mixE 1 0xe8c7b756 12 2)

/-- 43_steps.md R202: `c <- d + rotl32(c + E(d, a, b) + M[2] + 0x242070db, 17)`; `STEP <- 3`. -/
def execStep2 (s : State) : Host.Outcome State Fault Refusal :=
  .next (s.seqStep .c mixE 2 0x242070db 17 3)

/-- 43_steps.md R203: `b <- c + rotl32(b + E(c, d, a) + M[3] + 0xc1bdceee, 22)`; `STEP <- 4`. -/
def execStep3 (s : State) : Host.Outcome State Fault Refusal :=
  .next (s.seqStep .b mixE 3 0xc1bdceee 22 4)

/-- 43_steps.md R204: `a <- b + rotl32(a + E(b, c, d) + M[4] + 0xf57c0faf, 7)`; `STEP <- 5`. -/
def execStep4 (s : State) : Host.Outcome State Fault Refusal :=
  .next (s.seqStep .a mixE 4 0xf57c0faf 7 5)

/-- 43_steps.md R205: `d <- a + rotl32(d + E(a, b, c) + M[5] + 0x4787c62a, 12)`; `STEP <- 6`. -/
def execStep5 (s : State) : Host.Outcome State Fault Refusal :=
  .next (s.seqStep .d mixE 5 0x4787c62a 12 6)

/-- 43_steps.md R206: `c <- d + rotl32(c + E(d, a, b) + M[6] + 0xa8304613, 17)`; `STEP <- 7`. -/
def execStep6 (s : State) : Host.Outcome State Fault Refusal :=
  .next (s.seqStep .c mixE 6 0xa8304613 17 7)

/-- 43_steps.md R207: `b <- c + rotl32(b + E(c, d, a) + M[7] + 0xfd469501, 22)`; `STEP <- 8`. -/
def execStep7 (s : State) : Host.Outcome State Fault Refusal :=
  .next (s.seqStep .b mixE 7 0xfd469501 22 8)

/-- 43_steps.md R208: `a <- b + rotl32(a + E(b, c, d) + M[8] + 0x698098d8, 7)`; `STEP <- 9`. -/
def execStep8 (s : State) : Host.Outcome State Fault Refusal :=
  .next (s.seqStep .a mixE 8 0x698098d8 7 9)

/-- 43_steps.md R209: `d <- a + rotl32(d + E(a, b, c) + M[9] + 0x8b44f7af, 12)`; `STEP <- 10`. -/
def execStep9 (s : State) : Host.Outcome State Fault Refusal :=
  .next (s.seqStep .d mixE 9 0x8b44f7af 12 10)

/-- 43_steps.md R210: `c <- d + rotl32(c + E(d, a, b) + M[10] + 0xffff5bb1, 17)`; `STEP <- 11`. -/
def execStep10 (s : State) : Host.Outcome State Fault Refusal :=
  .next (s.seqStep .c mixE 10 0xffff5bb1 17 11)

/-- 43_steps.md R211: `b <- c + rotl32(b + E(c, d, a) + M[11] + 0x895cd7be, 22)`; `STEP <- 12`. -/
def execStep11 (s : State) : Host.Outcome State Fault Refusal :=
  .next (s.seqStep .b mixE 11 0x895cd7be 22 12)

/-- 43_steps.md R212: `a <- b + rotl32(a + E(b, c, d) + M[12] + 0x6b901122, 7)`; `STEP <- 13`. -/
def execStep12 (s : State) : Host.Outcome State Fault Refusal :=
  .next (s.seqStep .a mixE 12 0x6b901122 7 13)

/-- 43_steps.md R213: `d <- a + rotl32(d + E(a, b, c) + M[13] + 0xfd987193, 12)`; `STEP <- 14`. -/
def execStep13 (s : State) : Host.Outcome State Fault Refusal :=
  .next (s.seqStep .d mixE 13 0xfd987193 12 14)

/-- 43_steps.md R214: `c <- d + rotl32(c + E(d, a, b) + M[14] + 0xa679438e, 17)`; `STEP <- 15`. -/
def execStep14 (s : State) : Host.Outcome State Fault Refusal :=
  .next (s.seqStep .c mixE 14 0xa679438e 17 15)

/-- 43_steps.md R215: `b <- c + rotl32(b + E(c, d, a) + M[15] + 0x49b40821, 22)`; `STEP <- 16`. -/
def execStep15 (s : State) : Host.Outcome State Fault Refusal :=
  .next (s.seqStep .b mixE 15 0x49b40821 22 16)

end Sys2Proof.Machine
end

