-- ==== Sys2Proof/Machine/Round2.lean ====
section
/-! DEFINITION. The meanings of the steps of round 2, each with the registers, the function, the message word,
the constant and the rotation amount that its rule of 43_steps.md writes out. -/

namespace Sys2Proof.Machine

/-- 43_steps.md R216: `a <- b + rotl32(a + G(b, c, d) + M[1] + 0xf61e2562, 5)`; `STEP <- 17`. -/
def execStep16 (s : State) : Host.Outcome State Fault Refusal :=
  .next (s.seqStep .a mixG 1 0xf61e2562 5 17)

/-- 43_steps.md R217: `d <- a + rotl32(d + G(a, b, c) + M[6] + 0xc040b340, 9)`; `STEP <- 18`. -/
def execStep17 (s : State) : Host.Outcome State Fault Refusal :=
  .next (s.seqStep .d mixG 6 0xc040b340 9 18)

/-- 43_steps.md R218: `c <- d + rotl32(c + G(d, a, b) + M[11] + 0x265e5a51, 14)`; `STEP <- 19`. -/
def execStep18 (s : State) : Host.Outcome State Fault Refusal :=
  .next (s.seqStep .c mixG 11 0x265e5a51 14 19)

/-- 43_steps.md R219: `b <- c + rotl32(b + G(c, d, a) + M[0] + 0xe9b6c7aa, 20)`; `STEP <- 20`. -/
def execStep19 (s : State) : Host.Outcome State Fault Refusal :=
  .next (s.seqStep .b mixG 0 0xe9b6c7aa 20 20)

/-- 43_steps.md R220: `a <- b + rotl32(a + G(b, c, d) + M[5] + 0xd62f105d, 5)`; `STEP <- 21`. -/
def execStep20 (s : State) : Host.Outcome State Fault Refusal :=
  .next (s.seqStep .a mixG 5 0xd62f105d 5 21)

/-- 43_steps.md R221: `d <- a + rotl32(d + G(a, b, c) + M[10] + 0x02441453, 9)`; `STEP <- 22`. -/
def execStep21 (s : State) : Host.Outcome State Fault Refusal :=
  .next (s.seqStep .d mixG 10 0x02441453 9 22)

/-- 43_steps.md R222: `c <- d + rotl32(c + G(d, a, b) + M[15] + 0xd8a1e681, 14)`; `STEP <- 23`. -/
def execStep22 (s : State) : Host.Outcome State Fault Refusal :=
  .next (s.seqStep .c mixG 15 0xd8a1e681 14 23)

/-- 43_steps.md R223: `b <- c + rotl32(b + G(c, d, a) + M[4] + 0xe7d3fbc8, 20)`; `STEP <- 24`. -/
def execStep23 (s : State) : Host.Outcome State Fault Refusal :=
  .next (s.seqStep .b mixG 4 0xe7d3fbc8 20 24)

/-- 43_steps.md R224: `a <- b + rotl32(a + G(b, c, d) + M[9] + 0x21e1cde6, 5)`; `STEP <- 25`. -/
def execStep24 (s : State) : Host.Outcome State Fault Refusal :=
  .next (s.seqStep .a mixG 9 0x21e1cde6 5 25)

/-- 43_steps.md R225: `d <- a + rotl32(d + G(a, b, c) + M[14] + 0xc33707d6, 9)`; `STEP <- 26`. -/
def execStep25 (s : State) : Host.Outcome State Fault Refusal :=
  .next (s.seqStep .d mixG 14 0xc33707d6 9 26)

/-- 43_steps.md R226: `c <- d + rotl32(c + G(d, a, b) + M[3] + 0xf4d50d87, 14)`; `STEP <- 27`. -/
def execStep26 (s : State) : Host.Outcome State Fault Refusal :=
  .next (s.seqStep .c mixG 3 0xf4d50d87 14 27)

/-- 43_steps.md R227: `b <- c + rotl32(b + G(c, d, a) + M[8] + 0x455a14ed, 20)`; `STEP <- 28`. -/
def execStep27 (s : State) : Host.Outcome State Fault Refusal :=
  .next (s.seqStep .b mixG 8 0x455a14ed 20 28)

/-- 43_steps.md R228: `a <- b + rotl32(a + G(b, c, d) + M[13] + 0xa9e3e905, 5)`; `STEP <- 29`. -/
def execStep28 (s : State) : Host.Outcome State Fault Refusal :=
  .next (s.seqStep .a mixG 13 0xa9e3e905 5 29)

/-- 43_steps.md R229: `d <- a + rotl32(d + G(a, b, c) + M[2] + 0xfcefa3f8, 9)`; `STEP <- 30`. -/
def execStep29 (s : State) : Host.Outcome State Fault Refusal :=
  .next (s.seqStep .d mixG 2 0xfcefa3f8 9 30)

/-- 43_steps.md R230: `c <- d + rotl32(c + G(d, a, b) + M[7] + 0x676f02d9, 14)`; `STEP <- 31`. -/
def execStep30 (s : State) : Host.Outcome State Fault Refusal :=
  .next (s.seqStep .c mixG 7 0x676f02d9 14 31)

/-- 43_steps.md R231: `b <- c + rotl32(b + G(c, d, a) + M[12] + 0x8d2a4c8a, 20)`; `STEP <- 32`. -/
def execStep31 (s : State) : Host.Outcome State Fault Refusal :=
  .next (s.seqStep .b mixG 12 0x8d2a4c8a 20 32)

end Sys2Proof.Machine
end

