-- ==== Sys2Proof/Machine/Round3.lean ====
section
/-! DEFINITION. The meanings of the steps of round 3, each with the registers, the function, the message word,
the constant and the rotation amount that its rule of 43_steps.md writes out. -/

namespace Sys2Proof.Machine

/-- 43_steps.md R232: `a <- b + rotl32(a + H(b, c, d) + M[5] + 0xfffa3942, 4)`; `STEP <- 33`. -/
def execStep32 (s : State) : Host.Outcome State Fault Refusal :=
  .next (s.seqStep .a mixH 5 0xfffa3942 4 33)

/-- 43_steps.md R233: `d <- a + rotl32(d + H(a, b, c) + M[8] + 0x8771f681, 11)`; `STEP <- 34`. -/
def execStep33 (s : State) : Host.Outcome State Fault Refusal :=
  .next (s.seqStep .d mixH 8 0x8771f681 11 34)

/-- 43_steps.md R234: `c <- d + rotl32(c + H(d, a, b) + M[11] + 0x6d9d6122, 16)`; `STEP <- 35`. -/
def execStep34 (s : State) : Host.Outcome State Fault Refusal :=
  .next (s.seqStep .c mixH 11 0x6d9d6122 16 35)

/-- 43_steps.md R235: `b <- c + rotl32(b + H(c, d, a) + M[14] + 0xfde5380c, 23)`; `STEP <- 36`. -/
def execStep35 (s : State) : Host.Outcome State Fault Refusal :=
  .next (s.seqStep .b mixH 14 0xfde5380c 23 36)

/-- 43_steps.md R236: `a <- b + rotl32(a + H(b, c, d) + M[1] + 0xa4beea44, 4)`; `STEP <- 37`. -/
def execStep36 (s : State) : Host.Outcome State Fault Refusal :=
  .next (s.seqStep .a mixH 1 0xa4beea44 4 37)

/-- 43_steps.md R237: `d <- a + rotl32(d + H(a, b, c) + M[4] + 0x4bdecfa9, 11)`; `STEP <- 38`. -/
def execStep37 (s : State) : Host.Outcome State Fault Refusal :=
  .next (s.seqStep .d mixH 4 0x4bdecfa9 11 38)

/-- 43_steps.md R238: `c <- d + rotl32(c + H(d, a, b) + M[7] + 0xf6bb4b60, 16)`; `STEP <- 39`. -/
def execStep38 (s : State) : Host.Outcome State Fault Refusal :=
  .next (s.seqStep .c mixH 7 0xf6bb4b60 16 39)

/-- 43_steps.md R239: `b <- c + rotl32(b + H(c, d, a) + M[10] + 0xbebfbc70, 23)`; `STEP <- 40`. -/
def execStep39 (s : State) : Host.Outcome State Fault Refusal :=
  .next (s.seqStep .b mixH 10 0xbebfbc70 23 40)

/-- 43_steps.md R240: `a <- b + rotl32(a + H(b, c, d) + M[13] + 0x289b7ec6, 4)`; `STEP <- 41`. -/
def execStep40 (s : State) : Host.Outcome State Fault Refusal :=
  .next (s.seqStep .a mixH 13 0x289b7ec6 4 41)

/-- 43_steps.md R241: `d <- a + rotl32(d + H(a, b, c) + M[0] + 0xeaa127fa, 11)`; `STEP <- 42`. -/
def execStep41 (s : State) : Host.Outcome State Fault Refusal :=
  .next (s.seqStep .d mixH 0 0xeaa127fa 11 42)

/-- 43_steps.md R242: `c <- d + rotl32(c + H(d, a, b) + M[3] + 0xd4ef3085, 16)`; `STEP <- 43`. -/
def execStep42 (s : State) : Host.Outcome State Fault Refusal :=
  .next (s.seqStep .c mixH 3 0xd4ef3085 16 43)

/-- 43_steps.md R243: `b <- c + rotl32(b + H(c, d, a) + M[6] + 0x04881d05, 23)`; `STEP <- 44`. -/
def execStep43 (s : State) : Host.Outcome State Fault Refusal :=
  .next (s.seqStep .b mixH 6 0x04881d05 23 44)

/-- 43_steps.md R244: `a <- b + rotl32(a + H(b, c, d) + M[9] + 0xd9d4d039, 4)`; `STEP <- 45`. -/
def execStep44 (s : State) : Host.Outcome State Fault Refusal :=
  .next (s.seqStep .a mixH 9 0xd9d4d039 4 45)

/-- 43_steps.md R245: `d <- a + rotl32(d + H(a, b, c) + M[12] + 0xe6db99e5, 11)`; `STEP <- 46`. -/
def execStep45 (s : State) : Host.Outcome State Fault Refusal :=
  .next (s.seqStep .d mixH 12 0xe6db99e5 11 46)

/-- 43_steps.md R246: `c <- d + rotl32(c + H(d, a, b) + M[15] + 0x1fa27cf8, 16)`; `STEP <- 47`. -/
def execStep46 (s : State) : Host.Outcome State Fault Refusal :=
  .next (s.seqStep .c mixH 15 0x1fa27cf8 16 47)

/-- 43_steps.md R247: `b <- c + rotl32(b + H(c, d, a) + M[2] + 0xc4ac5665, 23)`; `STEP <- 48`. -/
def execStep47 (s : State) : Host.Outcome State Fault Refusal :=
  .next (s.seqStep .b mixH 2 0xc4ac5665 23 48)

end Sys2Proof.Machine
end

