-- ==== Sys2Proof/Machine/Round4.lean ====
section
/-! DEFINITION. The meanings of the steps of round 4, each with the registers, the function, the message word,
the constant and the rotation amount that its rule of 43_steps.md writes out. -/

namespace Sys2Proof.Machine

/-- 43_steps.md R248: `a <- b + rotl32(a + I(b, c, d) + M[0] + 0xf4292244, 6)`; `STEP <- 49`. -/
def execStep48 (s : State) : Host.Outcome State Fault Refusal :=
  .next (s.seqStep .a mixI 0 0xf4292244 6 49)

/-- 43_steps.md R249: `d <- a + rotl32(d + I(a, b, c) + M[7] + 0x432aff97, 10)`; `STEP <- 50`. -/
def execStep49 (s : State) : Host.Outcome State Fault Refusal :=
  .next (s.seqStep .d mixI 7 0x432aff97 10 50)

/-- 43_steps.md R250: `c <- d + rotl32(c + I(d, a, b) + M[14] + 0xab9423a7, 15)`; `STEP <- 51`. -/
def execStep50 (s : State) : Host.Outcome State Fault Refusal :=
  .next (s.seqStep .c mixI 14 0xab9423a7 15 51)

/-- 43_steps.md R251: `b <- c + rotl32(b + I(c, d, a) + M[5] + 0xfc93a039, 21)`; `STEP <- 52`. -/
def execStep51 (s : State) : Host.Outcome State Fault Refusal :=
  .next (s.seqStep .b mixI 5 0xfc93a039 21 52)

/-- 43_steps.md R252: `a <- b + rotl32(a + I(b, c, d) + M[12] + 0x655b59c3, 6)`; `STEP <- 53`. -/
def execStep52 (s : State) : Host.Outcome State Fault Refusal :=
  .next (s.seqStep .a mixI 12 0x655b59c3 6 53)

/-- 43_steps.md R253: `d <- a + rotl32(d + I(a, b, c) + M[3] + 0x8f0ccc92, 10)`; `STEP <- 54`. -/
def execStep53 (s : State) : Host.Outcome State Fault Refusal :=
  .next (s.seqStep .d mixI 3 0x8f0ccc92 10 54)

/-- 43_steps.md R254: `c <- d + rotl32(c + I(d, a, b) + M[10] + 0xffeff47d, 15)`; `STEP <- 55`. -/
def execStep54 (s : State) : Host.Outcome State Fault Refusal :=
  .next (s.seqStep .c mixI 10 0xffeff47d 15 55)

/-- 43_steps.md R255: `b <- c + rotl32(b + I(c, d, a) + M[1] + 0x85845dd1, 21)`; `STEP <- 56`. -/
def execStep55 (s : State) : Host.Outcome State Fault Refusal :=
  .next (s.seqStep .b mixI 1 0x85845dd1 21 56)

/-- 43_steps.md R256: `a <- b + rotl32(a + I(b, c, d) + M[8] + 0x6fa87e4f, 6)`; `STEP <- 57`. -/
def execStep56 (s : State) : Host.Outcome State Fault Refusal :=
  .next (s.seqStep .a mixI 8 0x6fa87e4f 6 57)

/-- 43_steps.md R257: `d <- a + rotl32(d + I(a, b, c) + M[15] + 0xfe2ce6e0, 10)`; `STEP <- 58`. -/
def execStep57 (s : State) : Host.Outcome State Fault Refusal :=
  .next (s.seqStep .d mixI 15 0xfe2ce6e0 10 58)

/-- 43_steps.md R258: `c <- d + rotl32(c + I(d, a, b) + M[6] + 0xa3014314, 15)`; `STEP <- 59`. -/
def execStep58 (s : State) : Host.Outcome State Fault Refusal :=
  .next (s.seqStep .c mixI 6 0xa3014314 15 59)

/-- 43_steps.md R259: `b <- c + rotl32(b + I(c, d, a) + M[13] + 0x4e0811a1, 21)`; `STEP <- 60`. -/
def execStep59 (s : State) : Host.Outcome State Fault Refusal :=
  .next (s.seqStep .b mixI 13 0x4e0811a1 21 60)

/-- 43_steps.md R260: `a <- b + rotl32(a + I(b, c, d) + M[4] + 0xf7537e82, 6)`; `STEP <- 61`. -/
def execStep60 (s : State) : Host.Outcome State Fault Refusal :=
  .next (s.seqStep .a mixI 4 0xf7537e82 6 61)

/-- 43_steps.md R261: `d <- a + rotl32(d + I(a, b, c) + M[11] + 0xbd3af235, 10)`; `STEP <- 62`. -/
def execStep61 (s : State) : Host.Outcome State Fault Refusal :=
  .next (s.seqStep .d mixI 11 0xbd3af235 10 62)

/-- 43_steps.md R262: `c <- d + rotl32(c + I(d, a, b) + M[2] + 0x2ad7d2bb, 15)`; `STEP <- 63`. -/
def execStep62 (s : State) : Host.Outcome State Fault Refusal :=
  .next (s.seqStep .c mixI 2 0x2ad7d2bb 15 63)

/-- 43_steps.md R263: `b <- c + rotl32(b + I(c, d, a) + M[9] + 0xeb86d391, 21)`; `STEP <- 64`. -/
def execStep63 (s : State) : Host.Outcome State Fault Refusal :=
  .next (s.seqStep .b mixI 9 0xeb86d391 21 64)

end Sys2Proof.Machine
end

