-- ==== Sys2Proof/Syntax.lean ====
section
/-! DEFINITION. The instructions: one constructor per row of spec/opcode_table.json. The first four are the
command words of the command port (30_encoding.md R95), the others the sequencer's transitions
(43_steps.md), each selected by its value of STEP (30_encoding.md R102). -/

namespace Sys2Proof

/-- One constructor per row of the opcode table. The commands keep their `data` field, `cmd[7:0]`
(30_encoding.md R94), also where the operation ignores it (R96), so that no bit of a word is lost
(log entry 13). -/
inductive Instr where
  /-- RESET, 40_reset.md R120. -/
  | reset (data : Byte)
  /-- UPDATE x, 41_update.md R130. -/
  | update (data : Byte)
  /-- FINALIZE, 44_finalize.md R270. -/
  | finalize (data : Byte)
  /-- The reserved command word, 30_encoding.md R96. -/
  | rsvd (data : Byte)
  -- round 1, 43_steps.md R200 to R215
  | step0 | step1 | step2 | step3
  | step4 | step5 | step6 | step7
  | step8 | step9 | step10 | step11
  | step12 | step13 | step14 | step15
  -- round 2, 43_steps.md R216 to R231
  | step16 | step17 | step18 | step19
  | step20 | step21 | step22 | step23
  | step24 | step25 | step26 | step27
  | step28 | step29 | step30 | step31
  -- round 3, 43_steps.md R232 to R247
  | step32 | step33 | step34 | step35
  | step36 | step37 | step38 | step39
  | step40 | step41 | step42 | step43
  | step44 | step45 | step46 | step47
  -- round 4, 43_steps.md R248 to R263
  | step48 | step49 | step50 | step51
  | step52 | step53 | step54 | step55
  | step56 | step57 | step58 | step59
  | step60 | step61 | step62 | step63
  -- 43_steps.md R264
  | feedfwd
  deriving DecidableEq, Repr

end Sys2Proof
end

