-- ==== Sys2Proof/WellFormed.lean ====
section
/-! DEFINITION. Checks on instructions and on command sequences. The only operand of an instruction is a byte by
its type (30_encoding.md R97) and all its 256 values are legal (R96, 41_update.md R130), so every term of
`Instr` decodes and runs. What a check can refuse is an encoding that is not canonical (R96) and a command
sequence that is not correctly sequenced (60_exceptions.md R316). -/

namespace Sys2Proof

/-- Where an instruction comes from: the command port or the STEP register, its row's format in the opcode
table (`CMD` or `SEQ`). -/
inductive Channel where
  | cmd
  | seq
  deriving DecidableEq, Repr

/-- The format of the instruction's row. -/
def Instr.channel : Instr → Channel
  | .reset _ | .update _ | .finalize _ | .rsvd _ => .cmd
  | .step0 | .step1 | .step2 | .step3 | .step4 | .step5 | .step6 | .step7
  | .step8 | .step9 | .step10 | .step11 | .step12 | .step13 | .step14 | .step15
  | .step16 | .step17 | .step18 | .step19 | .step20 | .step21 | .step22 | .step23
  | .step24 | .step25 | .step26 | .step27 | .step28 | .step29 | .step30 | .step31
  | .step32 | .step33 | .step34 | .step35 | .step36 | .step37 | .step38 | .step39
  | .step40 | .step41 | .step42 | .step43 | .step44 | .step45 | .step46 | .step47
  | .step48 | .step49 | .step50 | .step51 | .step52 | .step53 | .step54 | .step55
  | .step56 | .step57 | .step58 | .step59 | .step60 | .step61 | .step62 | .step63
  | .feedfwd => .seq

/-- "the canonical encoding has `data = 0`" for the words whose data field is ignored (30_encoding.md R96,
R103). An instruction that is not well-formed in this sense still decodes and runs. -/
def Instr.wellFormed : Instr → Bool
  | .reset d | .finalize d | .rsvd d => d == 0
  | .update _ => true
  | .step0 | .step1 | .step2 | .step3 | .step4 | .step5 | .step6 | .step7
  | .step8 | .step9 | .step10 | .step11 | .step12 | .step13 | .step14 | .step15
  | .step16 | .step17 | .step18 | .step19 | .step20 | .step21 | .step22 | .step23
  | .step24 | .step25 | .step26 | .step27 | .step28 | .step29 | .step30 | .step31
  | .step32 | .step33 | .step34 | .step35 | .step36 | .step37 | .step38 | .step39
  | .step40 | .step41 | .step42 | .step43 | .step44 | .step45 | .step46 | .step47
  | .step48 | .step49 | .step50 | .step51 | .step52 | .step53 | .step54 | .step55
  | .step56 | .step57 | .step58 | .step59 | .step60 | .step61 | .step62 | .step63
  | .feedfwd => true

/-- The field `op`, `cmd[9:8]`, of a command word (30_encoding.md R94). -/
def opField (c : BitVec 10) : BitVec 2 := c.extractLsb' 8 2

/-- The field `data`, `cmd[7:0]`, of a command word (30_encoding.md R94). -/
def dataField (c : BitVec 10) : Byte := c.extractLsb' 0 8

/-- The rest of a correctly sequenced command sequence, after a stretch in which a FINALIZE has (`done`) or
has not been seen: "any number of UPDATEs, then at most one FINALIZE, then nothing; and it holds no reserved
word", and a RESET opens a new stretch (60_exceptions.md R316). -/
def sequencedFrom (done : Bool) : List (BitVec 10) → Bool
  | [] => true
  | c :: rest =>
    match (opField c).toNat with
    | 0 => sequencedFrom false rest
    | 1 => !done && sequencedFrom done rest
    | 2 => !done && sequencedFrom true rest
    | _ => false

/-- A correctly sequenced command sequence, from the reset state (60_exceptions.md R316). -/
def correctlySequenced (words : List (BitVec 10)) : Bool := sequencedFrom false words

end Sys2Proof
end

