-- ==== Sys2Proof/Decode.lean ====
section
/-! DEFINITION. Decoder and encoder. The hardware has two code spaces: the 10-bit command word of the command
port (30_encoding.md R94, R95) and the 7-bit value of STEP (R102). `decode` is total and rejects by name;
`encode` is written from the same tables; `Instr.row` is the opcode table's match and mask of each
instruction. -/

namespace Sys2Proof

/-- A code word, with the code space it belongs to. -/
inductive CodeWord where
  /-- A command word, 30_encoding.md R94. -/
  | cmd (c : BitVec 10)
  /-- A value of STEP, 30_encoding.md R102. -/
  | seq (v : BitVec 7)
  deriving DecidableEq, Repr

/-- Why a code word is no instruction. -/
inductive Reject where
  /-- A value of STEP that never occurs: 65 to 127 (10_state.md R44). -/
  | stepOutOfRange (v : BitVec 7)
  deriving DecidableEq, Repr

/-- The command a word selects: "A decoder reads `op` and nothing else to select the operation"
(30_encoding.md R94, R95). Every one of the 1024 words is a command (R96). -/
def decodeCmd (c : BitVec 10) : Instr :=
  match (opField c).toNat with
  | 0 => .reset (dataField c)
  | 1 => .update (dataField c)
  | 2 => .finalize (dataField c)
  | _ => .rsvd (dataField c)

/-- The transitions of round 1, in the order of STEP (43_steps.md R200 to R215). -/
def seqRound1 : List Instr :=
  [.step0, .step1, .step2, .step3, .step4, .step5, .step6, .step7,
   .step8, .step9, .step10, .step11, .step12, .step13, .step14, .step15]

/-- The transitions of round 2, in the order of STEP (43_steps.md R216 to R231). -/
def seqRound2 : List Instr :=
  [.step16, .step17, .step18, .step19, .step20, .step21, .step22, .step23,
   .step24, .step25, .step26, .step27, .step28, .step29, .step30, .step31]

/-- The transitions of round 3, in the order of STEP (43_steps.md R232 to R247). -/
def seqRound3 : List Instr :=
  [.step32, .step33, .step34, .step35, .step36, .step37, .step38, .step39,
   .step40, .step41, .step42, .step43, .step44, .step45, .step46, .step47]

/-- The transitions of round 4, in the order of STEP (43_steps.md R248 to R263). -/
def seqRound4 : List Instr :=
  [.step48, .step49, .step50, .step51, .step52, .step53, .step54, .step55,
   .step56, .step57, .step58, .step59, .step60, .step61, .step62, .step63]

/-- The transitions in the order of STEP, 0 to 64 (30_encoding.md R102). -/
def seqTable : List Instr := seqRound1 ++ seqRound2 ++ seqRound3 ++ seqRound4 ++ [.feedfwd]

/-- The transition a value of STEP selects (30_encoding.md R102). -/
def decodeSeq (v : BitVec 7) : Except Reject Instr :=
  match seqTable[v.toNat]? with
  | some i => .ok i
  | none => .error (.stepOutOfRange v)

/-- The instruction of a code word. -/
def decode : CodeWord → Except Reject Instr
  | .cmd c => .ok (decodeCmd c)
  | .seq v => decodeSeq v

/-- The command word of an operation code and a data field (30_encoding.md R94). -/
def cmdWord (op : BitVec 2) (data : Byte) : CodeWord := .cmd (op ++ data)

/-- The code word of an instruction: 30_encoding.md R95 for the commands, R102 for the sequencer's
transitions. -/
def encode : Instr → CodeWord
  | .reset d => cmdWord 0b00 d
  | .update d => cmdWord 0b01 d
  | .finalize d => cmdWord 0b10 d
  | .rsvd d => cmdWord 0b11 d
  | .step0 => .seq 0b0000000
  | .step1 => .seq 0b0000001
  | .step2 => .seq 0b0000010
  | .step3 => .seq 0b0000011
  | .step4 => .seq 0b0000100
  | .step5 => .seq 0b0000101
  | .step6 => .seq 0b0000110
  | .step7 => .seq 0b0000111
  | .step8 => .seq 0b0001000
  | .step9 => .seq 0b0001001
  | .step10 => .seq 0b0001010
  | .step11 => .seq 0b0001011
  | .step12 => .seq 0b0001100
  | .step13 => .seq 0b0001101
  | .step14 => .seq 0b0001110
  | .step15 => .seq 0b0001111
  | .step16 => .seq 0b0010000
  | .step17 => .seq 0b0010001
  | .step18 => .seq 0b0010010
  | .step19 => .seq 0b0010011
  | .step20 => .seq 0b0010100
  | .step21 => .seq 0b0010101
  | .step22 => .seq 0b0010110
  | .step23 => .seq 0b0010111
  | .step24 => .seq 0b0011000
  | .step25 => .seq 0b0011001
  | .step26 => .seq 0b0011010
  | .step27 => .seq 0b0011011
  | .step28 => .seq 0b0011100
  | .step29 => .seq 0b0011101
  | .step30 => .seq 0b0011110
  | .step31 => .seq 0b0011111
  | .step32 => .seq 0b0100000
  | .step33 => .seq 0b0100001
  | .step34 => .seq 0b0100010
  | .step35 => .seq 0b0100011
  | .step36 => .seq 0b0100100
  | .step37 => .seq 0b0100101
  | .step38 => .seq 0b0100110
  | .step39 => .seq 0b0100111
  | .step40 => .seq 0b0101000
  | .step41 => .seq 0b0101001
  | .step42 => .seq 0b0101010
  | .step43 => .seq 0b0101011
  | .step44 => .seq 0b0101100
  | .step45 => .seq 0b0101101
  | .step46 => .seq 0b0101110
  | .step47 => .seq 0b0101111
  | .step48 => .seq 0b0110000
  | .step49 => .seq 0b0110001
  | .step50 => .seq 0b0110010
  | .step51 => .seq 0b0110011
  | .step52 => .seq 0b0110100
  | .step53 => .seq 0b0110101
  | .step54 => .seq 0b0110110
  | .step55 => .seq 0b0110111
  | .step56 => .seq 0b0111000
  | .step57 => .seq 0b0111001
  | .step58 => .seq 0b0111010
  | .step59 => .seq 0b0111011
  | .step60 => .seq 0b0111100
  | .step61 => .seq 0b0111101
  | .step62 => .seq 0b0111110
  | .step63 => .seq 0b0111111
  | .feedfwd => .seq 0b1000000

/-- The width, match and mask of a row of the opcode table. -/
structure Row where
  width : Nat
  pattern : Nat
  mask : Nat
  deriving DecidableEq, Repr

/-- The opcode table's row of each instruction (spec/opcode_table.json, "match" and "mask"). -/
def Instr.row : Instr → Row
  | .reset _ => ⟨10, 0x000, 0x300⟩
  | .update _ => ⟨10, 0x100, 0x300⟩
  | .finalize _ => ⟨10, 0x200, 0x300⟩
  | .rsvd _ => ⟨10, 0x300, 0x300⟩
  | .step0 => ⟨7, 0x00, 0x7f⟩
  | .step1 => ⟨7, 0x01, 0x7f⟩
  | .step2 => ⟨7, 0x02, 0x7f⟩
  | .step3 => ⟨7, 0x03, 0x7f⟩
  | .step4 => ⟨7, 0x04, 0x7f⟩
  | .step5 => ⟨7, 0x05, 0x7f⟩
  | .step6 => ⟨7, 0x06, 0x7f⟩
  | .step7 => ⟨7, 0x07, 0x7f⟩
  | .step8 => ⟨7, 0x08, 0x7f⟩
  | .step9 => ⟨7, 0x09, 0x7f⟩
  | .step10 => ⟨7, 0x0a, 0x7f⟩
  | .step11 => ⟨7, 0x0b, 0x7f⟩
  | .step12 => ⟨7, 0x0c, 0x7f⟩
  | .step13 => ⟨7, 0x0d, 0x7f⟩
  | .step14 => ⟨7, 0x0e, 0x7f⟩
  | .step15 => ⟨7, 0x0f, 0x7f⟩
  | .step16 => ⟨7, 0x10, 0x7f⟩
  | .step17 => ⟨7, 0x11, 0x7f⟩
  | .step18 => ⟨7, 0x12, 0x7f⟩
  | .step19 => ⟨7, 0x13, 0x7f⟩
  | .step20 => ⟨7, 0x14, 0x7f⟩
  | .step21 => ⟨7, 0x15, 0x7f⟩
  | .step22 => ⟨7, 0x16, 0x7f⟩
  | .step23 => ⟨7, 0x17, 0x7f⟩
  | .step24 => ⟨7, 0x18, 0x7f⟩
  | .step25 => ⟨7, 0x19, 0x7f⟩
  | .step26 => ⟨7, 0x1a, 0x7f⟩
  | .step27 => ⟨7, 0x1b, 0x7f⟩
  | .step28 => ⟨7, 0x1c, 0x7f⟩
  | .step29 => ⟨7, 0x1d, 0x7f⟩
  | .step30 => ⟨7, 0x1e, 0x7f⟩
  | .step31 => ⟨7, 0x1f, 0x7f⟩
  | .step32 => ⟨7, 0x20, 0x7f⟩
  | .step33 => ⟨7, 0x21, 0x7f⟩
  | .step34 => ⟨7, 0x22, 0x7f⟩
  | .step35 => ⟨7, 0x23, 0x7f⟩
  | .step36 => ⟨7, 0x24, 0x7f⟩
  | .step37 => ⟨7, 0x25, 0x7f⟩
  | .step38 => ⟨7, 0x26, 0x7f⟩
  | .step39 => ⟨7, 0x27, 0x7f⟩
  | .step40 => ⟨7, 0x28, 0x7f⟩
  | .step41 => ⟨7, 0x29, 0x7f⟩
  | .step42 => ⟨7, 0x2a, 0x7f⟩
  | .step43 => ⟨7, 0x2b, 0x7f⟩
  | .step44 => ⟨7, 0x2c, 0x7f⟩
  | .step45 => ⟨7, 0x2d, 0x7f⟩
  | .step46 => ⟨7, 0x2e, 0x7f⟩
  | .step47 => ⟨7, 0x2f, 0x7f⟩
  | .step48 => ⟨7, 0x30, 0x7f⟩
  | .step49 => ⟨7, 0x31, 0x7f⟩
  | .step50 => ⟨7, 0x32, 0x7f⟩
  | .step51 => ⟨7, 0x33, 0x7f⟩
  | .step52 => ⟨7, 0x34, 0x7f⟩
  | .step53 => ⟨7, 0x35, 0x7f⟩
  | .step54 => ⟨7, 0x36, 0x7f⟩
  | .step55 => ⟨7, 0x37, 0x7f⟩
  | .step56 => ⟨7, 0x38, 0x7f⟩
  | .step57 => ⟨7, 0x39, 0x7f⟩
  | .step58 => ⟨7, 0x3a, 0x7f⟩
  | .step59 => ⟨7, 0x3b, 0x7f⟩
  | .step60 => ⟨7, 0x3c, 0x7f⟩
  | .step61 => ⟨7, 0x3d, 0x7f⟩
  | .step62 => ⟨7, 0x3e, 0x7f⟩
  | .step63 => ⟨7, 0x3f, 0x7f⟩
  | .feedfwd => ⟨7, 0x40, 0x7f⟩

/-- The bits of a code word as a number. -/
def CodeWord.toNat : CodeWord → Nat
  | .cmd c => c.toNat
  | .seq v => v.toNat

/-- The width of a code word's code space. -/
def CodeWord.width : CodeWord → Nat
  | .cmd _ => 10
  | .seq _ => 7

/-- A code word matches a row: same width, and its bits under the mask are the row's pattern. -/
def CodeWord.matchesRow (w : CodeWord) (r : Row) : Bool :=
  w.width == r.width && (w.toNat &&& r.mask) == r.pattern

/-! ### The opcode table's rows as the host numbers them (log entry 10)

The host names a row by a number of bits and a number. The table's two formats have 10 and 7 bits, that is 16
and 8 in whole bytes. The reader's list gives many SEQ rows a field `s` at the bit whose number is the row's
ROTATION AMOUNT (spec/98_reader.md: where fields and the spec's words differ, the spec's words are right), which
makes such a row look 16 or 24 bits wide. These definitions serve only the host's question; no step of the
machine reads a code word through them. -/

/-- A SEQ row that the reader's field `s` makes look 16 bits wide: a step whose rotation amount is 8 to 15
(columns 1 of every round and 2 of rounds 2 and 4, 42_block_processor.md R161). -/
def seqRowOf16 (w : Nat) : Bool :=
  decide (w < 64) && (w % 4 == 1 || (w % 4 == 2 && (w / 16 == 1 || w / 16 == 3)))

/-- The code word the host means by `nbits` bits of the number `w` (log entry 10). -/
def tableWord (nbits w : Nat) : CodeWord :=
  if decide (8 < nbits) && decide (nbits ≤ 16) && !seqRowOf16 w then .cmd (BitVec.ofNat 10 w)
  else .seq (BitVec.ofNat 7 w)

/-- The instruction the decoder reads from a row's word (log entry 10). -/
def decodeTableWord (nbits w : Nat) : Option Instr :=
  match decode (tableWord nbits w) with
  | .ok i => some i
  | .error _ => none

end Sys2Proof
end

