-- ==== Sys2Proof/Machine/Fetch.lean ====
section
/-! DEFINITION. What the next clock edge does: the port sample, the acceptance rule (30_encoding.md R91), the
priority of `rst` (R92), and the code word that is run. -/

namespace Sys2Proof.Machine

/-- The sample of an edge at which the host drives nothing. -/
def PortIn.nothing : PortIn := ⟨false, false, 0⟩

/-- The sample that offers a command word. -/
def PortIn.offer (c : BitVec 10) : PortIn := ⟨false, true, c⟩

/-- The port sample of this edge; nothing is driven when the list is at its end (log entry 2). -/
def State.sample (s : State) : PortIn := s.inputs.headD PortIn.nothing

/-- The state with this edge's sample taken. -/
def State.sampled (s : State) : State := { s with inputs := s.inputs.tail }

/-- What an edge does. -/
inductive Event where
  /-- `rst = 1` is sampled (30_encoding.md R92). -/
  | reset
  /-- No command in progress and none offered: all state is held (60_exceptions.md R329). -/
  | hold
  /-- The sub-phase PAD2 (44_finalize.md R277). -/
  | pad2
  /-- A code word is run: an accepted command word (30_encoding.md R91), or the transition that STEP selects
  (R102). -/
  | run (w : CodeWord)
  deriving DecidableEq, Repr

/-- What the next edge does. `rst` "has priority over everything" (30_encoding.md R92); a command is accepted
when `cmd_valid = 1` and `cmd_ready = 1` (R91); "A word offered while `cmd_ready = 0` is not accepted and has no
effect". -/
def State.event (s : State) : Event :=
  if s.sample.rst then .reset
  else
    match s.activity with
    | .idle => if s.sample.cmdValid then .run (.cmd s.sample.cmd) else .hold
    | .compU => .run (.seq s.stepReg)
    | .comp1 => .run (.seq s.stepReg)
    | .pad2 => .pad2
    | .compT => .run (.seq s.stepReg)

/-- The state whose next edge runs a code word: a command word is offered to an idle engine; a value of STEP is
put into STEP with a COMPRESS in progress, and no command is offered (log entry 10). -/
def State.withCode (s : State) : CodeWord → State
  | .cmd c => { s with activity := .idle, inputs := PortIn.offer c :: s.inputs }
  | .seq v => { s with activity := .compU, stepReg := v, inputs := PortIn.nothing :: s.inputs }

end Sys2Proof.Machine
end

