-- ==== Sys2Proof/Machine/Step.lean ====
section
/-! DEFINITION. One step: one rising edge of `clk` (log entry 1). -/

namespace Sys2Proof.Machine

/-- One rising edge of `clk`. A COMPRESS in progress makes one transition an edge, the reference decomposition of
70_reset_and_hazards.md R359. -/
def step (s : State) : Host.Outcome State Fault Refusal :=
  match s.event with
  | .reset => .next s.sampled.toReset
  | .hold => .next s.sampled
  | .pad2 => .next s.sampled.runPad2
  | .run w =>
    match decode w with
    | .ok i => exec i s.sampled
    | .error _ => .fault .stepOutOfRange

/-- The state whose next step runs the instruction of a row's word (log entry 10). -/
def State.withFetchWord (s : State) (nbits w : Nat) : State := s.withCode (tableWord nbits w)

/-- `k` edges, stopping at the first fault or refusal. -/
def runEdges : Nat → State → Host.Outcome State Fault Refusal
  | 0, s => .next s
  | k + 1, s =>
    match step s with
    | .next t => runEdges k t
    | .fault r => .fault r
    | .refused r => .refused r

end Sys2Proof.Machine
end

