-- ==== Sys2Proof/Machine/Outputs.lean ====
section
/-! DEFINITION. The output ports as functions of the state (30_encoding.md R90, R93, R101; 44_finalize.md R280).
Reading them changes nothing (20_memory.md R71). -/

namespace Sys2Proof.Machine

/-- The serialiser (44_finalize.md R280): digest bytes `dg[0..15]`, the four words in the order A, B, C, D, each
little-endian. -/
def serialise (h : Chain) : List Byte := le32Bytes h.A ++ le32Bytes h.B ++ le32Bytes h.C ++ le32Bytes h.D

/-- The value of the `digest` port: `digest[8k+7 : 8k] = dg[k]` (30_encoding.md R101), so byte 0 is the least
significant. -/
def packBytes : List Byte → Nat
  | [] => 0
  | b :: rest => b.toNat + 256 * packBytes rest

/-- The output ports. `none` stands for a value the spec leaves unspecified: `digest`, `cnt_lo` and `cnt_hi` while
a command is in progress (30_encoding.md R93; log entry 5). -/
structure Outputs where
  cmdReady : Bool
  digest : Option (BitVec 128)
  digestValid : Bool
  err : Bool
  errCause : BitVec 2
  cntLo : Option Word
  cntHi : Option Word
  deriving DecidableEq, Repr

/-- The outputs in a state (30_encoding.md R93). -/
def State.outputs (s : State) : Outputs where
  cmdReady := s.ready
  digest := if s.ready then some (BitVec.ofNat 128 (packBytes (serialise s.arch.h))) else none
  digestValid := s.ready && s.arch.phase.bit
  err := s.arch.err
  errCause := s.arch.cause.code
  cntLo := if s.ready then some s.arch.cntLo else none
  cntHi := if s.ready then some s.arch.cntHi else none

end Sys2Proof.Machine
end

