-- ==== Sys2Proof/Machine/Compress.lean ====
section
/-! DEFINITION. COMPRESS as one pure function (42_block_processor.md R150), from the tables and the index form of
the generic step (R158, R159). The step machine is the 64 meanings of Machine/Round1.lean to Round4.lean; that
the two agree is stated, not built in (00_scope.md R13). -/

namespace Sys2Proof.Machine

/-- "64 bytes in" (20_memory.md R68; 93_implementation_defined.md U1). -/
abbrev Block := Vector Byte Config.blockBytes

/-- `M[k] = le32_word(blk[4k .. 4k+3])` (42_block_processor.md R153; 30_encoding.md R98). -/
def Block.word (blk : Block) (k : BitVec 4) : Word :=
  le32Word (blk[4 * k.toNat]'(by have := k.isLt; simp only [Config.blockBytes]; omega))
    (blk[4 * k.toNat + 1]'(by have := k.isLt; simp only [Config.blockBytes]; omega))
    (blk[4 * k.toNat + 2]'(by have := k.isLt; simp only [Config.blockBytes]; omega))
    (blk[4 * k.toNat + 3]'(by have := k.isLt; simp only [Config.blockBytes]; omega))

/-- The 64 bytes of the buffer (42_block_processor.md R151). -/
def memBlock (m : Memory) : Block := Vector.ofFn fun j => memRead1 m (BitVec.ofNat 6 j.val)

/-- `f_i`: E, G, H, I for the four rounds (42_block_processor.md R150). -/
def mixOf (i : Nat) : Word → Word → Word → Word :=
  match i / 16 with
  | 0 => mixE
  | 1 => mixG
  | 2 => mixH
  | _ => mixI

/-- `STEP i` on the accumulators (42_block_processor.md R159): with `j = (4 - (i mod 4)) mod 4`, reads `w[j]`,
`w[(j+1) mod 4]`, `w[(j+2) mod 4]`, `w[(j+3) mod 4]` and writes `w[j]`. -/
def stepAccum (M : BitVec 4 → Word) (i : Nat) (w : Accum) : Accum :=
  let j := (4 - i % 4) % 4
  let x0 := w.get (WReg.ofIndex j)
  let x1 := w.get (WReg.ofIndex ((j + 1) % 4))
  let x2 := w.get (WReg.ofIndex ((j + 2) % 4))
  let x3 := w.get (WReg.ofIndex ((j + 3) % 4))
  let t := x0 + mixOf i x1 x2 x3 + M (perm i) + kConst i
  w.set (WReg.ofIndex j) (x1 + rotl32 t (sAmount i))

/-- The accumulators after steps 0 to `n - 1`. -/
def stepsTo (M : BitVec 4 → Word) (w : Accum) : Nat → Accum
  | 0 => w
  | n + 1 => stepAccum M n (stepsTo M w n)

/-- COMPRESS from the sixteen message words. -/
def compressWords (h : Chain) (M : BitVec 4 → Word) : Chain :=
  h.addAccum (stepsTo M (Accum.ofChain h) Config.nSteps)

/-- `compress((A, B, C, D), blk)` (42_block_processor.md R150). -/
def compress (h : Chain) (blk : Block) : Chain := compressWords h blk.word

/-- `COMPRESS(BUF)` (42_block_processor.md R151). -/
def Arch.compressBuf (a : Arch) : Arch := { a with h := compress a.h (memBlock a.buf) }

/-- The equivalent form of the role rotation that keeps the names and rotates the values
(42_block_processor.md R158): `(a, b, c, d) <- (d, b + rotl32(a + f(b, c, d) + M[PERM[i]] + K[i], S[i]), b, c)`. -/
def stepRotating (M : BitVec 4 → Word) (i : Nat) (w : Accum) : Accum :=
  ⟨w.d, w.b + rotl32 (w.a + mixOf i w.b w.c w.d + M (perm i) + kConst i) (sAmount i), w.b, w.c⟩

/-- The accumulators of the rotating form after steps 0 to `n - 1`. -/
def stepsRotating (M : BitVec 4 → Word) (w : Accum) : Nat → Accum
  | 0 => w
  | n + 1 => stepRotating M n (stepsRotating M w n)

end Sys2Proof.Machine
end

