-- ==== Sys2Proof/Machine/Transaction.lean ====
section
/-! DEFINITION. The transaction level: each accepted command is one transition of the architectural state
(00_scope.md R13). It shares the buffer writes, the counter and the misuse entry with the meanings of the step
level and takes COMPRESS as the function of Machine/Compress.lean. -/

namespace Sys2Proof.Machine

/-- `ABSORB(x)` (41_update.md R131). -/
def Arch.absorb (a : Arch) (x : Byte) : Arch :=
  if a.used = 63 then (a.writeByte x).compressBuf else a.writeByte x

/-- `UPDATE x` (41_update.md R130). -/
def Arch.update (a : Arch) (x : Byte) : Arch :=
  match a.phase with
  | .done => a.raiseMisuse .updateAfterFinalize
  | .absorb => a.absorb x

/-- The effect of FINALIZE in phase ABSORB (44_finalize.md R270). -/
def Arch.padAndCompress (a : Arch) : Arch :=
  if a.twoBlocks then { a.padFirst.compressBuf.padFresh.compressBuf with phase := .done }
  else { a.padOne.compressBuf with phase := .done }

/-- `FINALIZE` (44_finalize.md R270). -/
def Arch.finalize (a : Arch) : Arch :=
  match a.phase with
  | .done => a.raiseMisuse .finalizeTwice
  | .absorb => a.padAndCompress

/-- The effect of an accepted command word, as one transition (30_encoding.md R95, R96). -/
def Arch.transact (a : Arch) (c : BitVec 10) : Arch :=
  match (opField c).toNat with
  | 0 => Arch.reset
  | 1 => a.update (dataField c)
  | 2 => a.finalize
  | _ => a.raiseMisuse .reservedOpcode

/-- The effect of a command sequence, in the order of acceptance (20_memory.md R74). -/
def Arch.transactAll (a : Arch) (words : List (BitVec 10)) : Arch := words.foldl Arch.transact a

/-- `UPDATE data[0]`, ..., `UPDATE data[n-1]`, none when `n = 0`: `UPDATE_N` (30_encoding.md R104;
45_host_helpers.md R302). -/
def updateWords (data : List Byte) : List (BitVec 10) := data.map (fun x => 0b01#2 ++ x)

/-- The effect of `UPDATE_N`. -/
def Arch.updateN (a : Arch) (data : List Byte) : Arch := data.foldl Arch.update a

end Sys2Proof.Machine
end

