-- ==== Sys2Proof/Machine/Slice.lean ====
section
/-! DEFINITION. The document's slice-level `update(data, n)` (41_update.md R132, read as 90_conflicts.md C1
resolves it). It is no command of the hardware (R135); R133 relates it to the byte-serial commands. -/

namespace Sys2Proof.Machine

/-- `BUF[at .. at+n-1] <- data[0 .. n-1]`. -/
def copyIn (m : Memory) (at_ : Nat) : List Byte → Memory
  | [] => m
  | x :: rest => copyIn (memWrite1 m (BitVec.ofNat 6 at_) x) (at_ + 1) rest

/-- The 64 bytes at the front of a list as a block (0x00 where the list is shorter; used on 64 bytes or more). -/
def blockOf (l : List Byte) : Block := Vector.ofFn fun j => l.getD j.val 0

/-- The first `n` whole blocks of a byte string. -/
def takeBlocks : Nat → List Byte → List Block
  | 0, _ => []
  | n + 1, l => blockOf l :: takeBlocks n (l.drop 64)

/-- The whole 64-byte blocks of a byte string, in order. -/
def blocks (l : List Byte) : List Block := takeBlocks (l.length / 64) l

/-- The bytes after the last whole block. -/
def remainder (l : List Byte) : List Byte := l.drop (64 * (l.length / 64))

/-- Step 3's direct path: every complete 64-byte chunk is passed to `compress` without going through the
buffer, and the final incomplete remainder is copied to the front of the buffer (41_update.md R132). -/
def Arch.sliceDirect (a : Arch) (data : List Byte) : Arch :=
  { a with
    h := (blocks data).foldl compress a.h
    buf := copyIn a.buf 0 (remainder data) }

/-- `update(data, n)` in phase ABSORB (41_update.md R132). -/
def Arch.sliceUpdate (a : Arch) (data : List Byte) : Arch :=
  let used := a.used.toNat
  let a1 := a.addCnt (BitVec.ofNat 32 data.length) (BitVec.ofNat 32 (data.length / 2 ^ 32))
  if used = 0 then a1.sliceDirect data
  else if data.length < 64 - used then { a1 with buf := copyIn a1.buf used data }
  else
    ({ a1 with buf := copyIn a1.buf used (data.take (64 - used)) } : Arch).compressBuf.sliceDirect
      (data.drop (64 - used))

end Sys2Proof.Machine
end

