-- ==== Sys2Proof/Machine/HostHelpers.lean ====
section
/-! DEFINITION. The host-side helpers (45_host_helpers.md) as pure functions over the transaction level, and the
reference function they are measured against: padding (30_encoding.md R99), blocks, fold, serialise. Log entry
16. -/

namespace Sys2Proof.Machine

/-- `le64_bytes(L)`: the 8 bytes of `L`, least significant first (30_encoding.md R99). -/
def le64Bytes (l : BitVec 64) : List Byte :=
  le32Bytes (l.extractLsb' 0 32) ++ le32Bytes (l.extractLsb' 32 32)

/-- `pad(m) = m ++ [0x80] ++ [0x00] * z ++ le64_bytes((8n) mod 2^64)` with `z = (55 - n) mod 64`
(30_encoding.md R99). `119 - n mod 64` is `55 - n` plus a multiple of 64 that is not negative. -/
def pad (m : List Byte) : List Byte :=
  m ++ [0x80] ++ List.replicate ((119 - m.length % 64) % 64) 0 ++ le64Bytes (BitVec.ofNat 64 (8 * m.length))

/-- `ser(fold compress IV (blocks(pad(m))))` (45_host_helpers.md R300; 42_block_processor.md R165). -/
def referenceDigest (m : List Byte) : List Byte := serialise ((blocks (pad m)).foldl compress Chain.iv)

/-- The command sequence `HASH`: RESET, the UPDATEs, FINALIZE (30_encoding.md R104). -/
def hashWords (m : List Byte) : List (BitVec 10) := 0x000#10 :: updateWords m ++ [0x200#10]

/-- `HASH(bytes, n)` on an instance in any state: the digest port after the sequence (45_host_helpers.md R300). -/
def hash (a : Arch) (m : List Byte) : List Byte := serialise (a.transactAll (hashWords m)).h

/-- The bytes of a zero-terminated string up to and not including its terminator (45_host_helpers.md R301). The
spec gives no meaning to a string without one: then all of it (log entry 16). -/
def stringBytes (s : List Byte) : List Byte := s.takeWhile (· != 0)

/-- `HASH_STR(s)` (45_host_helpers.md R301). -/
def hashStr (a : Arch) (s : List Byte) : List Byte := hash a (stringBytes s)

/-- `HEXCHAR(v)` for `v` in 0 to 15, as a byte (45_host_helpers.md R303). -/
def hexChar (v : Byte) : Byte := if v ≤ 9 then 0x30 + v else 0x61 + (v - 10)

/-- `digest_to_hex`: two characters a byte, high nibble first (45_host_helpers.md R303, for 16 bytes; here for any number,
log entry 17). -/
def digestToHex (dg : List Byte) : List Byte := dg.flatMap fun (b : Byte) => [hexChar (b >>> 4), hexChar (b &&& 0xf)]

/-- `val(ch)` for `'0'..'9'` and `'a'..'f'` (45_host_helpers.md R304). "no behaviour on upper-case or non-hex
characters" is specified: `none` there (log entry 17). -/
def hexVal (ch : Byte) : Option Byte :=
  if 0x30 ≤ ch ∧ ch ≤ 0x39 then some (ch - 0x30)
  else if 0x61 ≤ ch ∧ ch ≤ 0x66 then some (ch - 0x61 + 10)
  else none

/-- The decoder of R304: `dg[k] = 16 * val(hex[2k]) + val(hex[2k+1])`. R304 gives it for the 32 characters of a digest;
DESIGN CHOICE (log entry 17): any even length decodes, an odd one is `none`. -/
def hexToDigest : List Byte → Option (List Byte)
  | [] => some []
  | [_] => none
  | hi :: lo :: rest =>
    match hexVal hi, hexVal lo, hexToDigest rest with
    | some h, some l, some r => some ((16 * h + l) :: r)
    | _, _, _ => none

end Sys2Proof.Machine
end

