-- ==== Sys2Proof/Machine/Notation.lean ====
section
/-! DEFINITION. The textual notation of command sequences (30_encoding.md R103) and its pseudo-operations (R104): one
line of text to the command words it stands for, and a command word to its line. It is notation of the spec, no
part of the hardware. DESIGN CHOICE (log entry 18): where the rules show the notation only by example (separators,
quotes, escapes, what a string may hold), these definitions settle it. -/

namespace Sys2Proof.Machine

/-- A token of a line. -/
inductive Token where
  /-- A mnemonic or a number. -/
  | word (text : List Char)
  /-- `'c'`. -/
  | char (ch : Char)
  /-- `"s"`, the text between the quotes. -/
  | string (text : List Char)
  deriving DecidableEq, Repr

/-- The word read so far, where there is one. -/
def wordToken (text : List Char) : List Token := if text.isEmpty then [] else [.word text]

/-- The tokens of a line; inside a string up to the next double quote. A space separates tokens and `;` starts a
comment, but not inside `'c'` or `"s"`; a string that is not closed is not of the notation. DESIGN CHOICE (log entry
18). -/
def lineTokens : Bool → List Char → List Char → Option (List Token)
  | true, _, [] => none
  | true, cur, '\x22' :: rest => (lineTokens false [] rest).map (.string cur :: ·)
  | true, cur, ch :: rest => lineTokens true (cur ++ [ch]) rest
  | false, cur, [] => some (wordToken cur)
  | false, cur, ';' :: _ => some (wordToken cur)
  | false, cur, ' ' :: rest => (lineTokens false [] rest).map (wordToken cur ++ ·)
  | false, cur, '\x22' :: rest => (lineTokens true [] rest).map (wordToken cur ++ ·)
  | false, cur, '\x27' :: ch :: '\x27' :: rest => (lineTokens false [] rest).map (wordToken cur ++ .char ch :: ·)
  | false, cur, ch :: rest => lineTokens false (cur ++ [ch]) rest

/-- The ASCII code of a character, for the printable ones, 0x20 to 0x7e; no other character has one. DESIGN CHOICE (log
entry 18): R103 says "printable" of `'c'` only, and the model asks it of a string's characters too. -/
def asciiCode (ch : Char) : Option Byte :=
  if 0x20 ≤ ch.toNat ∧ ch.toNat ≤ 0x7e then some (BitVec.ofNat 8 ch.toNat) else none

/-- The bytes of a string's text. The escapes are the two that 45_host_helpers.md R301 writes, a backslash and `n` for
0x0a and a backslash and `0` for 0x00; every other backslash is the byte 0x5c; a character that is not printable
makes the string none of the notation. DESIGN CHOICE (log entry 18): R103 and R104 state no escape. -/
def stringCodes : List Char → Option (List Byte)
  | [] => some []
  | '\\' :: 'n' :: rest => (stringCodes rest).map (0x0a :: ·)
  | '\\' :: '0' :: rest => (stringCodes rest).map (0x00 :: ·)
  | ch :: rest =>
    match asciiCode ch, stringCodes rest with
    | some b, some bs => some (b :: bs)
    | _, _ => none

/-- One hexadecimal digit, lower case (log entry 18). -/
def hexDigit (ch : Char) : Option Byte := (asciiCode ch).bind hexVal

/-- A byte operand: `0xNN`, or `'c'` "for the ASCII code of a printable character" (R103). No escape is read in `'c'`
(log entry 18). -/
def operandByte : Token → Option Byte
  | .word ['0', 'x', hi, lo] =>
    match hexDigit hi, hexDigit lo with
    | some h, some l => some (16 * h + l)
    | _, _ => none
  | .word _ => none
  | .char ch => asciiCode ch
  | .string _ => none

/-- The bytes of an operand of UPDATE_N or HASH: a byte operand (R104), or a string, for the bytes of its text. DESIGN
CHOICE (log entry 18): R104 shows byte operands only, the spec's examples write strings (41_update.md section 4,
95_test_vectors.md P1, P2). A string may stand anywhere among the operands. -/
def operandBytes : Token → Option (List Byte)
  | .string text => stringCodes text
  | .word text => (operandByte (.word text)).map ([·])
  | .char ch => (operandByte (.char ch)).map ([·])

/-- The bytes of all operands of UPDATE_N or HASH, in order. -/
def operandList (operands : List Token) : Option (List Byte) := (operands.mapM operandBytes).map List.flatten

/-- The command words of a mnemonic and its operands: the commands of R103 and the pseudo-operations of R104. HASH_STR
takes one string and hashes it up to its first 0x00 (R301); UPDATE takes one byte operand, no string. -/
def assembleCommand (mnemonic : List Char) (operands : List Token) : Option (List (BitVec 10)) :=
  if mnemonic = "UPDATE_N".toList then (operandList operands).map updateWords
  else if mnemonic = "HASH".toList then (operandList operands).map hashWords
  else
    match operands with
    | [] =>
      if mnemonic = "RESET".toList then some [0x000]
      else if mnemonic = "FINALIZE".toList then some [0x200]
      else if mnemonic = "RSVD".toList then some [0x300]
      else none
    | [operand] =>
      if mnemonic = "UPDATE".toList then (operandByte operand).map fun x => updateWords [x]
      else
        match operand with
        | .string text =>
          if mnemonic = "HASH_STR".toList then (stringCodes text).map fun bytes => hashWords (stringBytes bytes)
          else none
        | .word _ => none
        | .char _ => none
    | _ :: _ :: _ => none

/-- The command words of a line's tokens. A line without a token stands for no command. What a string may hold, and
that UPDATE_N and HASH take one, is the model's choice (log entry 18; `stringCodes`, `operandBytes`). -/
def assembleTokens : List Token → Option (List (BitVec 10))
  | [] => some []
  | .word mnemonic :: operands => assembleCommand mnemonic operands
  | .char _ :: _ => none
  | .string _ :: _ => none

/-- The command words of one line; `none` for a line that is not of the notation. -/
def assembleLine (line : List Char) : Option (List (BitVec 10)) := (lineTokens false [] line).bind assembleTokens

/-- The line of a command word, with its canonical operand (R103). -/
def commandLine (c : BitVec 10) : List Char :=
  match (opField c).toNat with
  | 0 => "RESET".toList
  | 1 => "UPDATE 0x".toList ++ (digestToHex [dataField c]).map (fun b => Char.ofNat b.toNat)
  | 2 => "FINALIZE".toList
  | _ => "RSVD".toList

end Sys2Proof.Machine
end

