-- ==== Sys2Proof/Machine/System.lean ====
section
/-! DEFINITION. Several instances (60_exceptions.md R327; 20_memory.md R79): `N_INST` is the length of the list.
"A model of `N_INST` instances is the product of `N_INST` independent machines, scheduled in any order." Log entry
15. -/

namespace Sys2Proof.Machine

/-- The instances of a system, each with its own state and ports. -/
abbrev System := List State

/-- One edge of instance `k`; no other instance changes. An instance that does not exist makes no step. -/
def sysStep (k : Nat) (sys : System) : Host.Outcome System Fault Refusal :=
  match sys[k]? with
  | none => .next sys
  | some s =>
    match step s with
    | .next t => .next (sys.set k t)
    | .fault r => .fault r
    | .refused r => .refused r

/-- A schedule: which instance makes its next edge. -/
def sysRun : List Nat → System → Host.Outcome System Fault Refusal
  | [], sys => .next sys
  | k :: rest, sys =>
    match sysStep k sys with
    | .next sys' => sysRun rest sys'
    | .fault r => .fault r
    | .refused r => .refused r

end Sys2Proof.Machine
end

