-- ==== Sys2Proof/Machine/Timing.lean ====
section
/-! DEFINITION. The reference reading of the timing parameters (70_reset_and_hazards.md R358). Both stay arguments:
the spec leaves them open (92_eei_decisions.md D15). -/

namespace Sys2Proof.Machine

/-- How many COMPRESS invocations an accepted command word makes (70_reset_and_hazards.md R358). -/
def Arch.compressions (a : Arch) (c : BitVec 10) : Nat :=
  match (opField c).toNat, a.phase with
  | 1, .absorb => if a.used = 63 then 1 else 0
  | 2, .absorb => if a.twoBlocks then 2 else 1
  | _, _ => 0

/-- The latency of an accepted command word, from acceptance to `cmd_ready = 1` again, in terms of `T_CMD` and
`T_COMPRESS` (70_reset_and_hazards.md R358): one `T_CMD`, two for the two-block FINALIZE, and one `T_COMPRESS` for
each COMPRESS. -/
def Arch.latency (a : Arch) (tCmd tCompress : Nat) (c : BitVec 10) : Nat :=
  (if a.compressions c = 2 then 2 * tCmd else tCmd) + a.compressions c * tCompress

end Sys2Proof.Machine
end

