-- ==== Sys2Proof/Safety.lean ====
section
/-! DEFINITION. The terms claims use: the invariant of a run, what a state shows to a comparison, and the absence of
`rst` for a number of edges. -/

namespace Sys2Proof.Machine

/-- A COMPRESS is in progress. -/
def State.compressing (s : State) : Bool :=
  match s.activity with
  | .compU | .comp1 | .compT => true
  | .idle | .pad2 => false

/-- What every state of a run has: the buffer in canonical form; `ERR = 1` iff `ERR_CAUSE` is not 0
(60_exceptions.md R315); STEP in 0 to 64 (10_state.md R44); a command in progress only in phase ABSORB (30_encoding.md
R93: `digest_valid` is 0 while busy); in COMPU the byte just counted filled the block (41_update.md R131); in COMP1
and PAD2 the two-block path was taken (44_finalize.md R272), in COMPT either path. -/
def State.inv (s : State) : Bool :=
  s.arch.buf.wf && s.arch.errAgrees && decide (s.stepReg.toNat ≤ 64) &&
    (match s.activity with
      | .idle => true
      | .compU => s.arch.phase == .absorb && s.arch.used == 0
      | .comp1 => s.arch.phase == .absorb && s.arch.twoBlocks
      | .pad2 => s.arch.phase == .absorb && s.arch.twoBlocks
      | .compT => s.arch.phase == .absorb)

/-- The command word accepted at this edge (30_encoding.md R91). -/
def State.accepted (s : State) : Option (BitVec 10) :=
  if !s.sample.rst && s.ready && s.sample.cmdValid then some s.sample.cmd else none

/-- A command word with this operation code is accepted at this edge. -/
def State.accepts (s : State) (op : BitVec 2) : Bool :=
  match s.accepted with
  | some c => opField c == op
  | none => false

/-- This edge resets the instance: the `rst` pin or an accepted RESET (70_reset_and_hazards.md R350). -/
def State.resets (s : State) : Bool := s.sample.rst || s.accepts 0

/-- This edge makes the feed-forward of a COMPRESS in progress (43_steps.md R264). -/
def State.feedsForward (s : State) : Bool := !s.sample.rst && s.compressing && s.stepReg == 64

/-- Each word offered once, followed by so many idle edges that the longest command completes before the next is
offered. -/
def paced (words : List (BitVec 10)) : List PortIn :=
  words.flatMap fun c => PortIn.offer c :: List.replicate 131 PortIn.nothing

/-- Two states agree on all that selects transitions: counter, flags, sub-phase, STEP. They may differ in the
chaining words, the accumulators and the buffer (70_reset_and_hazards.md R360). -/
def State.sameControl (s t : State) : Prop :=
  s.arch.cntLo = t.arch.cntLo ∧ s.arch.cntHi = t.arch.cntHi ∧ s.arch.phase = t.arch.phase ∧ s.arch.err = t.arch.err ∧
    s.arch.cause = t.arch.cause ∧ s.activity = t.activity ∧ s.stepReg = t.stepReg ∧ s.fresh = t.fresh

/-- The first `k` edges sample `rst = 0`. -/
def noRst (k : Nat) (inputs : List PortIn) : Bool := (inputs.take k).all (fun p => !p.rst)

/-- The valid bytes of the buffer agree: the indices below `used` (10_state.md R37). -/
def Arch.sameValidBytes (a b : Arch) : Prop := ∀ j : BitVec 6, j < a.used → memRead1 a.buf j = memRead1 b.buf j

/-- Equal but for stale bytes of the buffer (41_update.md R133). -/
def Arch.sameButStale (a b : Arch) : Prop :=
  a.h = b.h ∧ a.cntLo = b.cntLo ∧ a.cntHi = b.cntHi ∧ a.phase = b.phase ∧ a.err = b.err ∧ a.cause = b.cause ∧
    a.sameValidBytes b

/-- The buffer invariant for an absorbed byte string `m` (10_state.md R38): the counter counts it, the chaining
words are the initialisation vector passed through its full blocks, the buffer holds the rest. -/
def Arch.holds (a : Arch) (m : List Byte) : Prop :=
  a.cnt = BitVec.ofNat 64 m.length ∧ a.h = (blocks m).foldl compress Chain.iv ∧
    ∀ j : BitVec 6, j < a.used → memRead1 a.buf j = m.getD (64 * (m.length / 64) + j.toNat) 0

end Sys2Proof.Machine
end

