-- ==== Sys2Proof/Certificates/Slice0/Obligations.lean ====
section
/-! DEFINITION. The statements for the provers. Each docstring says what is stated; the rules it rests on are its
cites in OBLIGATIONS.json. -/

open Sys2Proof
open Sys2Proof.Machine

/-- For every code word w and every instruction i, w decodes to i exactly when w is the encoding of i, so every operand value survives and no two words share an instruction. A value of STEP is rejected exactly when it is above 64, under its own name; no command word is rejected. Cites: R95, R96, R102, R44. -/
def Obligations.DecodeIsTheInverseOfEncode : Prop :=
  (∀ (w : CodeWord) (i : Instr), decode w = .ok i ↔ w = encode i) ∧
  (∀ (v : BitVec 7) (r : Reject), decode (.seq v) = .error r ↔ 64 < v.toNat ∧ r = .stepOutOfRange v) ∧
  (∀ (c : BitVec 10) (r : Reject), decode (.cmd c) ≠ .error r)

/-- For every code word w and instruction i: if w decodes to i, w matches the width, match and mask of i's row; w matches i's row exactly when it decodes to an instruction of that row; and no word matches two different rows. The instruction a command word decodes to has cmd[7:0] as its data field. Cites: R94, R95, R102. -/
def Obligations.DecodedInstructionMatchesOneRow : Prop :=
  (∀ (w : CodeWord) (i : Instr), decode w = .ok i → w.matchesRow i.row = true) ∧
  (∀ (w : CodeWord) (i : Instr), w.matchesRow i.row = true ↔ ∃ j, decode w = .ok j ∧ j.row = i.row) ∧
  (∀ (w : CodeWord) (i j : Instr), w.matchesRow i.row = true → w.matchesRow j.row = true → i.row = j.row) ∧
  (∀ (c : BitVec 10) (i : Instr), decode (.cmd c) = .ok i →
    let d : Byte := c.extractLsb' 0 8
    i = .reset d ∨ i = .update d ∨ i = .finalize d ∨ i = .rsvd d)

/-- For every 10-bit word: under the mask 0x300 the values 0x000, 0x100, 0x200, 0x300 decode to RESET, UPDATE, FINALIZE and the reserved word, each with the low eight bits as its data. The effect of RESET, FINALIZE and the reserved word is the same for every data value. Cites: R94, R95. -/
def Obligations.CommandWordSelectedByOpField : Prop :=
  ∀ c : BitVec 10,
    (c &&& 0x300 = 0x000 → decode (.cmd c) = .ok (.reset (c.extractLsb' 0 8))) ∧
    (c &&& 0x300 = 0x100 → decode (.cmd c) = .ok (.update (c.extractLsb' 0 8))) ∧
    (c &&& 0x300 = 0x200 → decode (.cmd c) = .ok (.finalize (c.extractLsb' 0 8))) ∧
    (c &&& 0x300 = 0x300 → decode (.cmd c) = .ok (.rsvd (c.extractLsb' 0 8))) ∧
    (∀ (s : State) (d d' : Byte), exec (.reset d) s = exec (.reset d') s ∧
      exec (.finalize d) s = exec (.finalize d') s ∧ exec (.rsvd d) s = exec (.rsvd d') s)

/-- 0x000 is RESET, 0x161 UPDATE of 0x61, 0x200 and 0x2a5 FINALIZE, 0x3a5 the reserved word; STEP values 0, 16, 32, 63 and 64 are STEP 0, STEP 16, STEP 32, STEP 63 and FEEDFWD. Cites: 30_encoding.md, R102, R103. -/
def Obligations.WrittenOutWordsDecode : Prop :=
  decode (.cmd 0b0000000000) = .ok (.reset 0) ∧
  decode (.cmd 0b0101100001) = .ok (.update 0x61) ∧
  decode (.cmd 0b1000000000) = .ok (.finalize 0) ∧
  decode (.cmd 0b1010100101) = .ok (.finalize 0xa5) ∧
  decode (.cmd 0b1110100101) = .ok (.rsvd 0xa5) ∧
  decode (.seq 0b0000000) = .ok .step0 ∧
  decode (.seq 0b0010000) = .ok .step16 ∧
  decode (.seq 0b0100000) = .ok .step32 ∧
  decode (.seq 0b0111111) = .ok .step63 ∧
  decode (.seq 0b1000000) = .ok .feedfwd

/-- An idle engine that is offered a word runs the word's command on the state with that sample taken. A COMPRESS in progress with rst = 0 runs the transition that STEP selects, whatever is offered, and stops under its own name where STEP selects none (the model's stop, log entry 8). An idle engine that is offered nothing holds its state. The state that the host's withFetchWord builds runs the instruction of its word. That a COMPRESS makes one transition an edge is the model's choice (log entry 1), and so is what withFetchWord builds (log entry 10). Cites: R91, R92, R102, R329. -/
def Obligations.StepRunsTheDecodedInstruction : Prop :=
  (∀ (s : State) (c : BitVec 10) (rest : List PortIn) (i : Instr), s.activity = .idle →
    s.inputs = ⟨false, true, c⟩ :: rest → decode (.cmd c) = .ok i → step s = exec i { s with inputs := rest }) ∧
  (∀ (s : State) (i : Instr), s.compressing = true → s.sample.rst = false → decode (.seq s.stepReg) = .ok i →
    step s = exec i { s with inputs := s.inputs.tail }) ∧
  (∀ (s : State) (r : Reject), s.compressing = true → s.sample.rst = false → decode (.seq s.stepReg) = .error r →
    step s = .fault .stepOutOfRange) ∧
  (∀ s : State, s.activity = .idle → s.sample.rst = false → s.sample.cmdValid = false →
    step s = .next { s with inputs := s.inputs.tail }) ∧
  (∀ (s : State) (nbits w : Nat) (i : Instr), decodeTableWord nbits w = some i →
    step (s.withFetchWord nbits w) = exec i { s.withFetchWord nbits w with inputs := s.inputs })

/-- In every state, every phase, with ERR set or clear, and for every value of the ignored data field, RESET answers a next state with the four initialisation constants, a zero counter, an all-zero buffer, phase ABSORB and no error, the engine ready, the coming port samples untouched; the words with op 0b00 are RESET. Cites: R120. -/
def Obligations.ResetCommandReinitialises : Prop :=
  (∀ (s : State) (d : Byte), ∃ t, exec (.reset d) s = .next t ∧
    (t.arch.h = ⟨0x67452301, 0xefcdab89, 0x98badcfe, 0x10325476⟩ ∧ t.arch.cntLo = 0 ∧ t.arch.cntHi = 0 ∧
      (∀ j, memRead1 t.arch.buf j = 0x00) ∧ t.arch.phase = .absorb ∧ t.arch.err = false ∧ t.arch.cause = .noCause) ∧
    t.ready = true ∧ t.inputs = s.inputs) ∧
  (∀ c : BitVec 10, c &&& 0x300 = 0x000 → decode (.cmd c) = .ok (.reset (c.extractLsb' 0 8)))

/-- In every state, whatever command is in progress and whatever cmd_valid and cmd are, an edge with rst = 1 answers a next state whose architectural state is the one a RESET command leaves, with no command in progress: the offered word is not accepted and the abandoned command has no further effect. Cites: R92. -/
def Obligations.ResetPinDominates : Prop :=
  ∀ (s : State) (v : Bool) (c : BitVec 10) (rest : List PortIn), s.inputs = ⟨true, v, c⟩ :: rest →
    ∃ t, step s = .next t ∧
      (t.arch.h = ⟨0x67452301, 0xefcdab89, 0x98badcfe, 0x10325476⟩ ∧ t.arch.cntLo = 0 ∧ t.arch.cntHi = 0 ∧
      (∀ j, memRead1 t.arch.buf j = 0x00) ∧ t.arch.phase = .absorb ∧ t.arch.err = false ∧ t.arch.cause = .noCause) ∧
      t.ready = true ∧ t.inputs = rest ∧ ∀ (d : Byte) (u : State), exec (.reset d) s = .next u → t.arch = u.arch

/-- The model's reset state, the state after an edge with rst = 1 and the state after a RESET command all have the listed value in every architectural element, and the outputs cmd_ready = 1, digest_valid = 0, err = 0, err_cause = 0, cnt_lo = cnt_hi = 0 and digest = 01 23 45 67 89 ab cd ef fe dc ba 98 76 54 32 10. Nothing is said of a, b, c, d and STEP, which the rule leaves unspecified. That the model starts in the reset state is no claim about power-on, which R49 leaves unspecified (log entry 7). Cites: R48, R49. -/
def Obligations.ResetStateAndItsOutputs : Prop :=
  ∀ t : State, (t = State.reset ∨ (∃ s : State, s.sample.rst = true ∧ step s = .next t) ∨
      (∃ (s : State) (d : Byte), exec (.reset d) s = .next t)) →
    (t.arch.h = ⟨0x67452301, 0xefcdab89, 0x98badcfe, 0x10325476⟩ ∧ t.arch.cntLo = 0 ∧ t.arch.cntHi = 0 ∧
      (∀ j, memRead1 t.arch.buf j = 0x00) ∧ t.arch.phase = .absorb ∧ t.arch.err = false ∧ t.arch.cause = .noCause) ∧
    serialise t.arch.h = [0x01, 0x23, 0x45, 0x67, 0x89, 0xab, 0xcd, 0xef, 0xfe, 0xdc, 0xba, 0x98, 0x76, 0x54, 0x32, 0x10] ∧
    t.outputs = ⟨true, some 0x1032547698badcfeefcdab8967452301, false, false, 0, some 0, some 0⟩

/-- In phase ABSORB with used not 63, UPDATE x answers the state in which BUF[used] = x, every other byte of BUF reads as before, the 64-bit counter is one more (mod 2^64), and every other field of the state is unchanged. Cites: R130, R131, R136. -/
def Obligations.UpdateBelow63WritesOneByte : Prop :=
  ∀ (s : State) (x : Byte), s.arch.buf.wf = true → s.arch.phase = .absorb → s.arch.used ≠ 63 →
    ∃ t, exec (.update x) s = .next t ∧
      (∀ j, memRead1 t.arch.buf j = if j = s.arch.used then x else memRead1 s.arch.buf j) ∧
      t.arch.cnt = s.arch.cnt + 1 ∧
      t = { s with arch := { s.arch with buf := t.arch.buf, cntLo := t.arch.cntLo, cntHi := t.arch.cntHi } }

/-- In phase ABSORB with used = 63, UPDATE x answers the state in which BUF[63] = x, every other byte of BUF reads as before, the counter is one more, the accumulators are loaded from the chaining words, STEP is 0 and the command is in its COMPRESS; every other field is unchanged. That the load falls in the transition that accepts the command, with the buffer write, is the model's choice (log entry 6). Cites: R130, R131, R152, R359. -/
def Obligations.UpdateOfByte63BeginsCompress : Prop :=
  ∀ (s : State) (x : Byte), s.arch.buf.wf = true → s.arch.phase = .absorb → s.arch.used = 63 →
    ∃ t, exec (.update x) s = .next t ∧
      (∀ j, memRead1 t.arch.buf j = if j = 63 then x else memRead1 s.arch.buf j) ∧
      t.arch.cnt = s.arch.cnt + 1 ∧ t.acc = ⟨s.arch.h.A, s.arch.h.B, s.arch.h.C, s.arch.h.D⟩ ∧
      t = { s with
        arch := { s.arch with buf := t.arch.buf, cntLo := t.arch.cntLo, cntHi := t.arch.cntHi }
        acc := t.acc, stepReg := 0, activity := .compU }

/-- In phase DONE, UPDATE of any byte answers the state with ERR = 1 and, if ERR was 0, ERR_CAUSE = 1; the byte is discarded and every other field is unchanged. Cites: R311. -/
def Obligations.UpdateInPhaseDoneIsMisuse : Prop :=
  ∀ (s : State) (x : Byte), s.arch.phase = .done →
    exec (.update x) s = .next { s with arch := { s.arch with
      err := true, cause := if s.arch.err then s.arch.cause else .updateAfterFinalize } }

/-- In phase DONE, FINALIZE answers the state with ERR = 1 and, if ERR was 0, ERR_CAUSE = 2, and every other field unchanged: no padding, no COMPRESS begun. So on an idle engine the digest output is as before and digest_valid is 1. Cites: R312. -/
def Obligations.FinalizeInPhaseDoneIsMisuse : Prop :=
  ∀ (s : State) (d : Byte), s.arch.phase = .done →
    exec (.finalize d) s = .next { s with arch := { s.arch with
      err := true, cause := if s.arch.err then s.arch.cause else .finalizeTwice } } ∧
    ∀ t, exec (.finalize d) s = .next t → t.outputs.digest = s.outputs.digest ∧
      (s.ready = true → t.outputs.digestValid = true)

/-- A word with cmd[9:8] = 0b11 decodes to the reserved word, and in every state, whatever cmd[7:0], it answers the state with ERR = 1 and, if ERR was 0, ERR_CAUSE = 3, every other field unchanged. Cites: R314. -/
def Obligations.ReservedWordIsMisuse : Prop :=
  ∀ (s : State) (c : BitVec 10), c &&& 0x300 = 0x300 → ∃ d, decode (.cmd c) = .ok (.rsvd d) ∧
    exec (.rsvd d) s = .next { s with arch := { s.arch with
      err := true, cause := if s.arch.err then s.arch.cause else .reservedOpcode } }

/-- For every state and any two data values, RESET has the same outcome, FINALIZE has the same outcome, and the reserved word has the same outcome. Cites: R96. -/
def Obligations.DataFieldIsIgnored : Prop :=
  ∀ (s : State) (d d' : Byte), exec (.reset d) s = exec (.reset d') s ∧
    exec (.finalize d) s = exec (.finalize d') s ∧ exec (.rsvd d) s = exec (.rsvd d') s

/-- For every step that answers a next state: if ERR was 1 and the edge neither samples rst = 1 nor accepts a RESET, ERR stays 1 and ERR_CAUSE keeps its value; if ERR was 0 and becomes 1, a command was accepted and the cause is that command's, 1 UPDATE or 2 FINALIZE in phase DONE, 3 the reserved word. Cites: R313, R41. -/
def Obligations.ErrorIsStickyAndFirstCauseKept : Prop :=
  ∀ s t : State, step s = .next t → s.resets = false →
    (s.arch.err = true → t.arch.err = true ∧ t.arch.cause = s.arch.cause) ∧
    (s.arch.err = false → t.arch.err = true →
      (s.accepts 1 = true ∧ s.arch.phase = .done ∧ t.arch.cause = .updateAfterFinalize) ∨
      (s.accepts 2 = true ∧ s.arch.phase = .done ∧ t.arch.cause = .finalizeTwice) ∨
      (s.accepts 3 = true ∧ t.arch.cause = .reservedOpcode))

/-- In phase ABSORB with used in 0 to 55, FINALIZE answers the state in which BUF keeps the bytes below used, holds 0x80 at used, 0x00 from used + 1 to 55, and the little-endian 64-bit length 8 * CNT mod 2^64 in bytes 56 to 63; the accumulators are loaded, STEP is 0, the terminal COMPRESS is in progress; every other field, CNT and PHASE among them, is unchanged. That PAD1 and the load fall in the transition that accepts the command is the model's choice (log entry 6). Cites: R270, R271, R272, R274, R275, R152, R277. -/
def Obligations.FinalizeOneBlockPads : Prop :=
  ∀ (s : State) (d : Byte), s.arch.buf.wf = true → s.arch.phase = .absorb → s.arch.used.toNat ≤ 55 →
    ∃ t, exec (.finalize d) s = .next t ∧
      (∀ j : BitVec 6, memRead1 t.arch.buf j =
        if j < s.arch.used then memRead1 s.arch.buf j
        else if j = s.arch.used then 0x80
        else if j.toNat < 56 then 0x00
        else (BitVec.ofNat 64 (8 * s.arch.cnt.toNat)).extractLsb' (8 * (j.toNat - 56)) 8) ∧
      t = { s with
        arch := { s.arch with buf := t.arch.buf }
        acc := ⟨s.arch.h.A, s.arch.h.B, s.arch.h.C, s.arch.h.D⟩, stepReg := 0, activity := .compT }

/-- In phase ABSORB with used in 56 to 63, FINALIZE answers the state in which BUF keeps the bytes below used, holds 0x80 at used and 0x00 above it; the accumulators are loaded, STEP is 0, the first COMPRESS is in progress; every other field is unchanged. That PAD1 and the load fall in the transition that accepts the command is the model's choice (log entry 6). Cites: R270, R271, R272, R273, R152, R277. -/
def Obligations.FinalizeTwoBlocksPadsFirst : Prop :=
  ∀ (s : State) (d : Byte), s.arch.buf.wf = true → s.arch.phase = .absorb → 56 ≤ s.arch.used.toNat →
    ∃ t, exec (.finalize d) s = .next t ∧
      (∀ j : BitVec 6, memRead1 t.arch.buf j =
        if j < s.arch.used then memRead1 s.arch.buf j else if j = s.arch.used then 0x80 else 0x00) ∧
      t = { s with
        arch := { s.arch with buf := t.arch.buf }
        acc := ⟨s.arch.h.A, s.arch.h.B, s.arch.h.C, s.arch.h.D⟩, stepReg := 0, activity := .comp1 }

/-- An edge in the sub-phase PAD2 with rst = 0 answers the state in which BUF is 0x00 in bytes 0 to 55 and holds the length 8 * CNT mod 2^64 little-endian in bytes 56 to 63; the accumulators are loaded, STEP is 0, the terminal COMPRESS is in progress; the sample is taken and every other field is unchanged. That PAD2 is a transition of its own is the model's choice (log entry 6). Cites: R273, R275, R277. -/
def Obligations.FreshBlockHoldsOnlyTheLength : Prop :=
  ∀ s : State, s.activity = .pad2 → s.sample.rst = false → ∃ t, step s = .next t ∧
    (∀ j : BitVec 6, memRead1 t.arch.buf j =
      if j.toNat < 56 then 0x00 else (BitVec.ofNat 64 (8 * s.arch.cnt.toNat)).extractLsb' (8 * (j.toNat - 56)) 8) ∧
    t = { s with
      arch := { s.arch with buf := t.arch.buf }
      acc := ⟨s.arch.h.A, s.arch.h.B, s.arch.h.C, s.arch.h.D⟩, stepReg := 0, activity := .compT
      inputs := s.inputs.tail }

/-- In every state, each of the steps 0 to 7 answers the state in which the accumulator its rule names has the value its rule gives, STEP is the next index, and every other field, the other three accumulators, the chaining words and BUF among them, is unchanged. Cites: R200, R201, R202, R203, R204, R205, R206, R207. -/
def Obligations.Steps0To7WriteOneAccumulator : Prop :=
  ∀ s : State,
    exec .step0 s = .next { s with
      acc := { s.acc with a := s.acc.b + rotl32 (s.acc.a + mixE s.acc.b s.acc.c s.acc.d + memRead4 s.arch.buf 0 + 0xd76aa478) 7 }
      stepReg := 1 } ∧
    exec .step1 s = .next { s with
      acc := { s.acc with d := s.acc.a + rotl32 (s.acc.d + mixE s.acc.a s.acc.b s.acc.c + memRead4 s.arch.buf 1 + 0xe8c7b756) 12 }
      stepReg := 2 } ∧
    exec .step2 s = .next { s with
      acc := { s.acc with c := s.acc.d + rotl32 (s.acc.c + mixE s.acc.d s.acc.a s.acc.b + memRead4 s.arch.buf 2 + 0x242070db) 17 }
      stepReg := 3 } ∧
    exec .step3 s = .next { s with
      acc := { s.acc with b := s.acc.c + rotl32 (s.acc.b + mixE s.acc.c s.acc.d s.acc.a + memRead4 s.arch.buf 3 + 0xc1bdceee) 22 }
      stepReg := 4 } ∧
    exec .step4 s = .next { s with
      acc := { s.acc with a := s.acc.b + rotl32 (s.acc.a + mixE s.acc.b s.acc.c s.acc.d + memRead4 s.arch.buf 4 + 0xf57c0faf) 7 }
      stepReg := 5 } ∧
    exec .step5 s = .next { s with
      acc := { s.acc with d := s.acc.a + rotl32 (s.acc.d + mixE s.acc.a s.acc.b s.acc.c + memRead4 s.arch.buf 5 + 0x4787c62a) 12 }
      stepReg := 6 } ∧
    exec .step6 s = .next { s with
      acc := { s.acc with c := s.acc.d + rotl32 (s.acc.c + mixE s.acc.d s.acc.a s.acc.b + memRead4 s.arch.buf 6 + 0xa8304613) 17 }
      stepReg := 7 } ∧
    exec .step7 s = .next { s with
      acc := { s.acc with b := s.acc.c + rotl32 (s.acc.b + mixE s.acc.c s.acc.d s.acc.a + memRead4 s.arch.buf 7 + 0xfd469501) 22 }
      stepReg := 8 }

/-- In every state, each of the steps 8 to 15 answers the state in which the accumulator its rule names has the value its rule gives, STEP is the next index, and every other field, the other three accumulators, the chaining words and BUF among them, is unchanged. Cites: R208, R209, R210, R211, R212, R213, R214, R215. -/
def Obligations.Steps8To15WriteOneAccumulator : Prop :=
  ∀ s : State,
    exec .step8 s = .next { s with
      acc := { s.acc with a := s.acc.b + rotl32 (s.acc.a + mixE s.acc.b s.acc.c s.acc.d + memRead4 s.arch.buf 8 + 0x698098d8) 7 }
      stepReg := 9 } ∧
    exec .step9 s = .next { s with
      acc := { s.acc with d := s.acc.a + rotl32 (s.acc.d + mixE s.acc.a s.acc.b s.acc.c + memRead4 s.arch.buf 9 + 0x8b44f7af) 12 }
      stepReg := 10 } ∧
    exec .step10 s = .next { s with
      acc := { s.acc with c := s.acc.d + rotl32 (s.acc.c + mixE s.acc.d s.acc.a s.acc.b + memRead4 s.arch.buf 10 + 0xffff5bb1) 17 }
      stepReg := 11 } ∧
    exec .step11 s = .next { s with
      acc := { s.acc with b := s.acc.c + rotl32 (s.acc.b + mixE s.acc.c s.acc.d s.acc.a + memRead4 s.arch.buf 11 + 0x895cd7be) 22 }
      stepReg := 12 } ∧
    exec .step12 s = .next { s with
      acc := { s.acc with a := s.acc.b + rotl32 (s.acc.a + mixE s.acc.b s.acc.c s.acc.d + memRead4 s.arch.buf 12 + 0x6b901122) 7 }
      stepReg := 13 } ∧
    exec .step13 s = .next { s with
      acc := { s.acc with d := s.acc.a + rotl32 (s.acc.d + mixE s.acc.a s.acc.b s.acc.c + memRead4 s.arch.buf 13 + 0xfd987193) 12 }
      stepReg := 14 } ∧
    exec .step14 s = .next { s with
      acc := { s.acc with c := s.acc.d + rotl32 (s.acc.c + mixE s.acc.d s.acc.a s.acc.b + memRead4 s.arch.buf 14 + 0xa679438e) 17 }
      stepReg := 15 } ∧
    exec .step15 s = .next { s with
      acc := { s.acc with b := s.acc.c + rotl32 (s.acc.b + mixE s.acc.c s.acc.d s.acc.a + memRead4 s.arch.buf 15 + 0x49b40821) 22 }
      stepReg := 16 }

/-- In every state, each of the steps 16 to 23 answers the state in which the accumulator its rule names has the value its rule gives, STEP is the next index, and every other field, the other three accumulators, the chaining words and BUF among them, is unchanged. Cites: R216, R217, R218, R219, R220, R221, R222, R223. -/
def Obligations.Steps16To23WriteOneAccumulator : Prop :=
  ∀ s : State,
    exec .step16 s = .next { s with
      acc := { s.acc with a := s.acc.b + rotl32 (s.acc.a + mixG s.acc.b s.acc.c s.acc.d + memRead4 s.arch.buf 1 + 0xf61e2562) 5 }
      stepReg := 17 } ∧
    exec .step17 s = .next { s with
      acc := { s.acc with d := s.acc.a + rotl32 (s.acc.d + mixG s.acc.a s.acc.b s.acc.c + memRead4 s.arch.buf 6 + 0xc040b340) 9 }
      stepReg := 18 } ∧
    exec .step18 s = .next { s with
      acc := { s.acc with c := s.acc.d + rotl32 (s.acc.c + mixG s.acc.d s.acc.a s.acc.b + memRead4 s.arch.buf 11 + 0x265e5a51) 14 }
      stepReg := 19 } ∧
    exec .step19 s = .next { s with
      acc := { s.acc with b := s.acc.c + rotl32 (s.acc.b + mixG s.acc.c s.acc.d s.acc.a + memRead4 s.arch.buf 0 + 0xe9b6c7aa) 20 }
      stepReg := 20 } ∧
    exec .step20 s = .next { s with
      acc := { s.acc with a := s.acc.b + rotl32 (s.acc.a + mixG s.acc.b s.acc.c s.acc.d + memRead4 s.arch.buf 5 + 0xd62f105d) 5 }
      stepReg := 21 } ∧
    exec .step21 s = .next { s with
      acc := { s.acc with d := s.acc.a + rotl32 (s.acc.d + mixG s.acc.a s.acc.b s.acc.c + memRead4 s.arch.buf 10 + 0x02441453) 9 }
      stepReg := 22 } ∧
    exec .step22 s = .next { s with
      acc := { s.acc with c := s.acc.d + rotl32 (s.acc.c + mixG s.acc.d s.acc.a s.acc.b + memRead4 s.arch.buf 15 + 0xd8a1e681) 14 }
      stepReg := 23 } ∧
    exec .step23 s = .next { s with
      acc := { s.acc with b := s.acc.c + rotl32 (s.acc.b + mixG s.acc.c s.acc.d s.acc.a + memRead4 s.arch.buf 4 + 0xe7d3fbc8) 20 }
      stepReg := 24 }

/-- In every state, each of the steps 24 to 31 answers the state in which the accumulator its rule names has the value its rule gives, STEP is the next index, and every other field, the other three accumulators, the chaining words and BUF among them, is unchanged. Cites: R224, R225, R226, R227, R228, R229, R230, R231. -/
def Obligations.Steps24To31WriteOneAccumulator : Prop :=
  ∀ s : State,
    exec .step24 s = .next { s with
      acc := { s.acc with a := s.acc.b + rotl32 (s.acc.a + mixG s.acc.b s.acc.c s.acc.d + memRead4 s.arch.buf 9 + 0x21e1cde6) 5 }
      stepReg := 25 } ∧
    exec .step25 s = .next { s with
      acc := { s.acc with d := s.acc.a + rotl32 (s.acc.d + mixG s.acc.a s.acc.b s.acc.c + memRead4 s.arch.buf 14 + 0xc33707d6) 9 }
      stepReg := 26 } ∧
    exec .step26 s = .next { s with
      acc := { s.acc with c := s.acc.d + rotl32 (s.acc.c + mixG s.acc.d s.acc.a s.acc.b + memRead4 s.arch.buf 3 + 0xf4d50d87) 14 }
      stepReg := 27 } ∧
    exec .step27 s = .next { s with
      acc := { s.acc with b := s.acc.c + rotl32 (s.acc.b + mixG s.acc.c s.acc.d s.acc.a + memRead4 s.arch.buf 8 + 0x455a14ed) 20 }
      stepReg := 28 } ∧
    exec .step28 s = .next { s with
      acc := { s.acc with a := s.acc.b + rotl32 (s.acc.a + mixG s.acc.b s.acc.c s.acc.d + memRead4 s.arch.buf 13 + 0xa9e3e905) 5 }
      stepReg := 29 } ∧
    exec .step29 s = .next { s with
      acc := { s.acc with d := s.acc.a + rotl32 (s.acc.d + mixG s.acc.a s.acc.b s.acc.c + memRead4 s.arch.buf 2 + 0xfcefa3f8) 9 }
      stepReg := 30 } ∧
    exec .step30 s = .next { s with
      acc := { s.acc with c := s.acc.d + rotl32 (s.acc.c + mixG s.acc.d s.acc.a s.acc.b + memRead4 s.arch.buf 7 + 0x676f02d9) 14 }
      stepReg := 31 } ∧
    exec .step31 s = .next { s with
      acc := { s.acc with b := s.acc.c + rotl32 (s.acc.b + mixG s.acc.c s.acc.d s.acc.a + memRead4 s.arch.buf 12 + 0x8d2a4c8a) 20 }
      stepReg := 32 }

/-- In every state, each of the steps 32 to 39 answers the state in which the accumulator its rule names has the value its rule gives, STEP is the next index, and every other field, the other three accumulators, the chaining words and BUF among them, is unchanged. Cites: R232, R233, R234, R235, R236, R237, R238, R239. -/
def Obligations.Steps32To39WriteOneAccumulator : Prop :=
  ∀ s : State,
    exec .step32 s = .next { s with
      acc := { s.acc with a := s.acc.b + rotl32 (s.acc.a + mixH s.acc.b s.acc.c s.acc.d + memRead4 s.arch.buf 5 + 0xfffa3942) 4 }
      stepReg := 33 } ∧
    exec .step33 s = .next { s with
      acc := { s.acc with d := s.acc.a + rotl32 (s.acc.d + mixH s.acc.a s.acc.b s.acc.c + memRead4 s.arch.buf 8 + 0x8771f681) 11 }
      stepReg := 34 } ∧
    exec .step34 s = .next { s with
      acc := { s.acc with c := s.acc.d + rotl32 (s.acc.c + mixH s.acc.d s.acc.a s.acc.b + memRead4 s.arch.buf 11 + 0x6d9d6122) 16 }
      stepReg := 35 } ∧
    exec .step35 s = .next { s with
      acc := { s.acc with b := s.acc.c + rotl32 (s.acc.b + mixH s.acc.c s.acc.d s.acc.a + memRead4 s.arch.buf 14 + 0xfde5380c) 23 }
      stepReg := 36 } ∧
    exec .step36 s = .next { s with
      acc := { s.acc with a := s.acc.b + rotl32 (s.acc.a + mixH s.acc.b s.acc.c s.acc.d + memRead4 s.arch.buf 1 + 0xa4beea44) 4 }
      stepReg := 37 } ∧
    exec .step37 s = .next { s with
      acc := { s.acc with d := s.acc.a + rotl32 (s.acc.d + mixH s.acc.a s.acc.b s.acc.c + memRead4 s.arch.buf 4 + 0x4bdecfa9) 11 }
      stepReg := 38 } ∧
    exec .step38 s = .next { s with
      acc := { s.acc with c := s.acc.d + rotl32 (s.acc.c + mixH s.acc.d s.acc.a s.acc.b + memRead4 s.arch.buf 7 + 0xf6bb4b60) 16 }
      stepReg := 39 } ∧
    exec .step39 s = .next { s with
      acc := { s.acc with b := s.acc.c + rotl32 (s.acc.b + mixH s.acc.c s.acc.d s.acc.a + memRead4 s.arch.buf 10 + 0xbebfbc70) 23 }
      stepReg := 40 }

/-- In every state, each of the steps 40 to 47 answers the state in which the accumulator its rule names has the value its rule gives, STEP is the next index, and every other field, the other three accumulators, the chaining words and BUF among them, is unchanged. Cites: R240, R241, R242, R243, R244, R245, R246, R247. -/
def Obligations.Steps40To47WriteOneAccumulator : Prop :=
  ∀ s : State,
    exec .step40 s = .next { s with
      acc := { s.acc with a := s.acc.b + rotl32 (s.acc.a + mixH s.acc.b s.acc.c s.acc.d + memRead4 s.arch.buf 13 + 0x289b7ec6) 4 }
      stepReg := 41 } ∧
    exec .step41 s = .next { s with
      acc := { s.acc with d := s.acc.a + rotl32 (s.acc.d + mixH s.acc.a s.acc.b s.acc.c + memRead4 s.arch.buf 0 + 0xeaa127fa) 11 }
      stepReg := 42 } ∧
    exec .step42 s = .next { s with
      acc := { s.acc with c := s.acc.d + rotl32 (s.acc.c + mixH s.acc.d s.acc.a s.acc.b + memRead4 s.arch.buf 3 + 0xd4ef3085) 16 }
      stepReg := 43 } ∧
    exec .step43 s = .next { s with
      acc := { s.acc with b := s.acc.c + rotl32 (s.acc.b + mixH s.acc.c s.acc.d s.acc.a + memRead4 s.arch.buf 6 + 0x04881d05) 23 }
      stepReg := 44 } ∧
    exec .step44 s = .next { s with
      acc := { s.acc with a := s.acc.b + rotl32 (s.acc.a + mixH s.acc.b s.acc.c s.acc.d + memRead4 s.arch.buf 9 + 0xd9d4d039) 4 }
      stepReg := 45 } ∧
    exec .step45 s = .next { s with
      acc := { s.acc with d := s.acc.a + rotl32 (s.acc.d + mixH s.acc.a s.acc.b s.acc.c + memRead4 s.arch.buf 12 + 0xe6db99e5) 11 }
      stepReg := 46 } ∧
    exec .step46 s = .next { s with
      acc := { s.acc with c := s.acc.d + rotl32 (s.acc.c + mixH s.acc.d s.acc.a s.acc.b + memRead4 s.arch.buf 15 + 0x1fa27cf8) 16 }
      stepReg := 47 } ∧
    exec .step47 s = .next { s with
      acc := { s.acc with b := s.acc.c + rotl32 (s.acc.b + mixH s.acc.c s.acc.d s.acc.a + memRead4 s.arch.buf 2 + 0xc4ac5665) 23 }
      stepReg := 48 }

/-- In every state, each of the steps 48 to 55 answers the state in which the accumulator its rule names has the value its rule gives, STEP is the next index, and every other field, the other three accumulators, the chaining words and BUF among them, is unchanged. Cites: R248, R249, R250, R251, R252, R253, R254, R255. -/
def Obligations.Steps48To55WriteOneAccumulator : Prop :=
  ∀ s : State,
    exec .step48 s = .next { s with
      acc := { s.acc with a := s.acc.b + rotl32 (s.acc.a + mixI s.acc.b s.acc.c s.acc.d + memRead4 s.arch.buf 0 + 0xf4292244) 6 }
      stepReg := 49 } ∧
    exec .step49 s = .next { s with
      acc := { s.acc with d := s.acc.a + rotl32 (s.acc.d + mixI s.acc.a s.acc.b s.acc.c + memRead4 s.arch.buf 7 + 0x432aff97) 10 }
      stepReg := 50 } ∧
    exec .step50 s = .next { s with
      acc := { s.acc with c := s.acc.d + rotl32 (s.acc.c + mixI s.acc.d s.acc.a s.acc.b + memRead4 s.arch.buf 14 + 0xab9423a7) 15 }
      stepReg := 51 } ∧
    exec .step51 s = .next { s with
      acc := { s.acc with b := s.acc.c + rotl32 (s.acc.b + mixI s.acc.c s.acc.d s.acc.a + memRead4 s.arch.buf 5 + 0xfc93a039) 21 }
      stepReg := 52 } ∧
    exec .step52 s = .next { s with
      acc := { s.acc with a := s.acc.b + rotl32 (s.acc.a + mixI s.acc.b s.acc.c s.acc.d + memRead4 s.arch.buf 12 + 0x655b59c3) 6 }
      stepReg := 53 } ∧
    exec .step53 s = .next { s with
      acc := { s.acc with d := s.acc.a + rotl32 (s.acc.d + mixI s.acc.a s.acc.b s.acc.c + memRead4 s.arch.buf 3 + 0x8f0ccc92) 10 }
      stepReg := 54 } ∧
    exec .step54 s = .next { s with
      acc := { s.acc with c := s.acc.d + rotl32 (s.acc.c + mixI s.acc.d s.acc.a s.acc.b + memRead4 s.arch.buf 10 + 0xffeff47d) 15 }
      stepReg := 55 } ∧
    exec .step55 s = .next { s with
      acc := { s.acc with b := s.acc.c + rotl32 (s.acc.b + mixI s.acc.c s.acc.d s.acc.a + memRead4 s.arch.buf 1 + 0x85845dd1) 21 }
      stepReg := 56 }

/-- In every state, each of the steps 56 to 63 answers the state in which the accumulator its rule names has the value its rule gives, STEP is the next index, and every other field, the other three accumulators, the chaining words and BUF among them, is unchanged. Cites: R256, R257, R258, R259, R260, R261, R262, R263. -/
def Obligations.Steps56To63WriteOneAccumulator : Prop :=
  ∀ s : State,
    exec .step56 s = .next { s with
      acc := { s.acc with a := s.acc.b + rotl32 (s.acc.a + mixI s.acc.b s.acc.c s.acc.d + memRead4 s.arch.buf 8 + 0x6fa87e4f) 6 }
      stepReg := 57 } ∧
    exec .step57 s = .next { s with
      acc := { s.acc with d := s.acc.a + rotl32 (s.acc.d + mixI s.acc.a s.acc.b s.acc.c + memRead4 s.arch.buf 15 + 0xfe2ce6e0) 10 }
      stepReg := 58 } ∧
    exec .step58 s = .next { s with
      acc := { s.acc with c := s.acc.d + rotl32 (s.acc.c + mixI s.acc.d s.acc.a s.acc.b + memRead4 s.arch.buf 6 + 0xa3014314) 15 }
      stepReg := 59 } ∧
    exec .step59 s = .next { s with
      acc := { s.acc with b := s.acc.c + rotl32 (s.acc.b + mixI s.acc.c s.acc.d s.acc.a + memRead4 s.arch.buf 13 + 0x4e0811a1) 21 }
      stepReg := 60 } ∧
    exec .step60 s = .next { s with
      acc := { s.acc with a := s.acc.b + rotl32 (s.acc.a + mixI s.acc.b s.acc.c s.acc.d + memRead4 s.arch.buf 4 + 0xf7537e82) 6 }
      stepReg := 61 } ∧
    exec .step61 s = .next { s with
      acc := { s.acc with d := s.acc.a + rotl32 (s.acc.d + mixI s.acc.a s.acc.b s.acc.c + memRead4 s.arch.buf 11 + 0xbd3af235) 10 }
      stepReg := 62 } ∧
    exec .step62 s = .next { s with
      acc := { s.acc with c := s.acc.d + rotl32 (s.acc.c + mixI s.acc.d s.acc.a s.acc.b + memRead4 s.arch.buf 2 + 0x2ad7d2bb) 15 }
      stepReg := 63 } ∧
    exec .step63 s = .next { s with
      acc := { s.acc with b := s.acc.c + rotl32 (s.acc.b + mixI s.acc.c s.acc.d s.acc.a + memRead4 s.arch.buf 9 + 0xeb86d391) 21 }
      stepReg := 64 }

/-- For every i in 0 to 63, the instruction the value i of STEP selects answers, in every state, the state whose accumulators are those of the generic step i (index form of the role rotation, the round's function, the message word PERM[i], K[i], S[i]) and whose STEP is i + 1; every other field is unchanged. Cites: R159. -/
def Obligations.StepsAreTheGenericStep : Prop :=
  ∀ (n : Nat) (i : Instr), n < 64 → decode (.seq (BitVec.ofNat 7 n)) = .ok i → ∀ s : State,
    exec i s = .next { s with
      acc := stepAccum (memRead4 s.arch.buf) n s.acc, stepReg := BitVec.ofNat 7 (n + 1) }

/-- In every state FEEDFWD answers a next state whose chaining words are A + a, B + b, C + c, D + d mod 2^32, with the counter, BUF, ERR, ERR_CAUSE and the port samples unchanged. The UPDATE's COMPRESS ends in the idle engine; the first COMPRESS of a two-block FINALIZE in PAD2; the terminal COMPRESS in the idle engine with PHASE = DONE; in the other cases PHASE is unchanged. Nothing is said of a, b, c, d and STEP, dead afterwards, but that STEP is 64 or less: it is then a free value of 0 to 64, the model's reading of R44 (log entry 4). The sub-phase names, and what FEEDFWD does with no COMPRESS in progress, are the model's (log entries 6, 9). Cites: R264, R164, R277, R279, R44. -/
def Obligations.FeedForwardAddsAndReturns : Prop :=
  ∀ s : State, ∃ t, exec .feedfwd s = .next t ∧
    t.arch = { s.arch with
      h := ⟨s.arch.h.A + s.acc.a, s.arch.h.B + s.acc.b, s.arch.h.C + s.acc.c, s.arch.h.D + s.acc.d⟩
      phase := if s.activity = .compT then .done else s.arch.phase } ∧
    t.activity = (match s.activity with
      | .compU => .idle
      | .comp1 => .pad2
      | .compT => .idle
      | .idle => .idle
      | .pad2 => .pad2) ∧
    t.inputs = s.inputs ∧ t.stepReg.toNat ≤ 64

/-- For all message words and all starting accumulators, 64 steps of the form (a, b, c, d) <- (d, b + rotl32(a + f(b, c, d) + M[PERM[i]] + K[i], S[i]), b, c) leave the same four accumulators, under their own names, as 64 generic steps with the rotating destination. Cites: R158, R159. -/
def Obligations.RotatingValuesIsTheSameCompress : Prop :=
  ∀ (M : BitVec 4 → Word) (w : Accum), stepsRotating M w 64 = stepsTo M w 64

/-- In every state in which a COMPRESS has just been loaded (accumulators = chaining words, STEP = 0) and no rst is sampled in the next 65 edges, whatever words are offered meanwhile, 65 edges answer a state whose chaining words are compress((A, B, C, D), BUF), whose BUF, counter, ERR and ERR_CAUSE are unchanged, whose 65 samples are taken, and in which control is back with the command. After k of these edges, k at most 64, the engine is still busy with STEP = k. The number of edges is that of the reference decomposition (log entry 1). Cites: R13, R150, R151, R264. -/
def Obligations.SixtyFiveEdgesComputeCompress : Prop :=
  ∀ s : State, s.compressing = true → s.acc = Accum.ofChain s.arch.h → s.stepReg = 0 → noRst 65 s.inputs = true →
    (∀ k ≤ 64, ∃ u, runEdges k s = .next u ∧ u.activity = s.activity ∧ u.stepReg = BitVec.ofNat 7 k ∧ u.arch = s.arch) ∧
    ∃ t, runEdges 65 s = .next t ∧
      t.arch = { s.arch with
        h := compress s.arch.h (memBlock s.arch.buf)
        phase := if s.activity = .compT then .done else s.arch.phase } ∧
      t.activity = (if s.activity = .comp1 then .pad2 else .idle) ∧ t.inputs = s.inputs.drop 65

/-- In every idle state that is offered a command word, with no rst sampled in the edges of its reference latency (T_CMD = 1, T_COMPRESS = 65, log entry 1), that many edges answer a ready state whose whole architectural state is the transaction level's result for that word and whose samples of these edges are taken; after every smaller positive number of edges the engine is not ready. Words offered meanwhile have no effect. Cites: R13, R91, R120, R131, R270, R358. -/
def Obligations.EdgesRefineTransactions : Prop :=
  ∀ (s : State) (c : BitVec 10) (rest : List PortIn), s.activity = .idle → s.inputs = PortIn.offer c :: rest →
    noRst (s.arch.latency 1 65 c) s.inputs = true →
    (∃ t, runEdges (s.arch.latency 1 65 c) s = .next t ∧ t.arch = s.arch.transact c ∧ t.ready = true ∧
      t.inputs = s.inputs.drop (s.arch.latency 1 65 c)) ∧
    ∀ k, 0 < k → k < s.arch.latency 1 65 c → ∃ u, runEdges k s = .next u ∧ u.ready = false

/-- From every state that meets the invariant, with no rst sampled in the next 131 edges and whatever is offered, the engine is ready after at most 131 edges: the bound is a constant, whatever the state and the data. The number is that of the reference decomposition (log entry 1). Cites: R357, R366. -/
def Obligations.EveryCommandCompletes : Prop :=
  ∀ s : State, s.inv = true → noRst 131 s.inputs = true → ∃ k ≤ 131, ∃ t, runEdges k s = .next t ∧ t.ready = true

/-- If a state has its buffer in canonical form, ERR = 1 exactly when ERR_CAUSE is not 0, STEP at most 64, a command in progress only in phase ABSORB, used = 0 in an UPDATE's COMPRESS and used at least 56 in COMP1 and PAD2, then so has every next state. The sub-phases and the edges they fall in are the model's (log entry 6), and so is the bound of 64 on the free value that STEP is outside COMPRESS (log entry 4). Cites: R38, R41, R44, R93, R315, R272. -/
def Obligations.EveryStepKeepsTheInvariant : Prop :=
  ∀ s t : State, s.inv = true → step s = .next t → t.inv = true

/-- The invariant holds of the state State.reset. That STEP is at most 64 there rests on the model's choice of 0 for it, which R48 leaves unspecified and R44 keeps to 0 to 64 (log entry 3). Cites: R48, R44. -/
def Obligations.ResetMeetsTheInvariant : Prop :=
  State.reset.inv = true

/-- Every step of a state that meets the invariant answers a next state; and every instruction, in every state at all, answers a next state. That exec answers also in states in which step would not ask for the instruction is the model's choice (log entry 9). Cites: R323, R44. -/
def Obligations.NoStepStops : Prop :=
  (∀ s : State, s.inv = true → ∃ t, step s = .next t) ∧ (∀ (i : Instr) (s : State), ∃ t, exec i s = .next t)

/-- For every step that answers a next state, the 64-bit counter is 0 if the edge resets the instance, one more (mod 2^64) if the edge accepts an UPDATE in phase ABSORB, and unchanged in every other case. That the count falls in the accepting edge is the model's choice (log entry 6). Cites: R325, R33, R34. -/
def Obligations.CounterMovesOnlyByUpdateAndReset : Prop :=
  ∀ s t : State, step s = .next t → t.arch.cnt =
    if s.resets then 0 else if s.accepts 1 && s.arch.phase == .absorb then s.arch.cnt + 1 else s.arch.cnt

/-- For every step that answers a next state, the chaining words are the initialisation constants if the edge resets the instance, the feed-forward sums if a COMPRESS in progress is at STEP = 64, and unchanged in every other case. That the feed-forward is one edge is the reference decomposition (log entry 1). Cites: R31, R264. -/
def Obligations.ChainingWordsWrittenByResetAndFeedForward : Prop :=
  ∀ s t : State, step s = .next t → t.arch.h =
    if s.resets then ⟨0x67452301, 0xefcdab89, 0x98badcfe, 0x10325476⟩
    else if s.feedsForward then
      ⟨s.arch.h.A + s.acc.a, s.arch.h.B + s.acc.b, s.arch.h.C + s.acc.c, s.arch.h.D + s.acc.d⟩
    else s.arch.h

/-- For every step that answers a next state, PHASE is ABSORB if the edge resets the instance, DONE if the terminal COMPRESS of a FINALIZE makes its feed-forward, and unchanged in every other case. That the completion falls in the edge of the terminal feed-forward is the model's choice (log entry 6). Cites: R40, R279. -/
def Obligations.PhaseWrittenByResetAndCompletion : Prop :=
  ∀ s t : State, step s = .next t → t.arch.phase =
    if s.resets then .absorb else if s.feedsForward && s.activity == .compT then .done else s.arch.phase

/-- For every step that answers a next state, if the edge does not reset the instance, accepts no FINALIZE in phase ABSORB, and is not the sub-phase PAD2, every byte of BUF reads as before, except the byte at used if the edge accepts an UPDATE in phase ABSORB. That the padding is written in the accepting edge and in PAD2, one edge of its own, is the model's choice (log entry 6). Cites: R37, R47. -/
def Obligations.BufferWrittenByUpdatePaddingAndReset : Prop :=
  ∀ s t : State, s.arch.buf.wf = true → step s = .next t → s.resets = false → s.activity ≠ .pad2 →
    (s.accepts 2 && s.arch.phase == .absorb) = false →
    ∀ j, ((s.accepts 1 && s.arch.phase == .absorb) = true → j ≠ s.arch.used) →
      memRead1 t.arch.buf j = memRead1 s.arch.buf j

/-- From a state that meets the invariant in phase DONE, an edge that does not reset the instance leaves A, B, C, D, CNT, BUF and PHASE as they are and the engine ready, so the digest port and digest_valid keep their values. Cites: R50, R283. -/
def Obligations.DigestSurvivesUntilReset : Prop :=
  ∀ s t : State, s.inv = true → s.arch.phase = .done → step s = .next t → s.resets = false →
    t.arch = { s.arch with err := t.arch.err, cause := t.arch.cause } ∧ t.ready = true ∧
      t.outputs.digest = s.outputs.digest ∧ t.outputs.digestValid = true

/-- In every state with a command in progress, an edge with rst = 0 has the same outcome whatever cmd_valid and cmd are. Cites: R91, R74. -/
def Obligations.OfferWhileBusyHasNoEffect : Prop :=
  ∀ (s : State) (v : Bool) (c : BitVec 10) (rest : List PortIn), s.ready = false → s.inputs = ⟨false, v, c⟩ :: rest →
    step s = step { s with inputs := ⟨false, false, 0⟩ :: rest }

/-- Two states that agree on the counter, PHASE, ERR, ERR_CAUSE, the sub-phase, STEP and the model's counter of free values (log entry 4), and sample the same rst, cmd_valid and operation code, but may differ in the message byte, BUF, the chaining words and the accumulators, make steps that both answer a next state or both do not, and the next states agree again. Cites: R360. -/
def Obligations.TransitionsIgnoreTheData : Prop :=
  ∀ s₁ s₂ t₁ : State, s₁.sameControl s₂ → s₁.sample.rst = s₂.sample.rst →
    s₁.sample.cmdValid = s₂.sample.cmdValid → opField s₁.sample.cmd = opField s₂.sample.cmd →
    step s₁ = .next t₁ → ∃ t₂, step s₂ = .next t₂ ∧ t₁.sameControl t₂

/-- For two architectural states with buffers in canonical form that agree in everything but the bytes of BUF at used and above, every command word takes them to two states that again agree in everything but such bytes. Cites: R39, R270. -/
def Obligations.StaleBytesAreDead : Prop :=
  ∀ (a b : Arch) (c : BitVec 10), a.buf.wf = true → b.buf.wf = true → a.sameButStale b →
    (a.transact c).sameButStale (b.transact c)

/-- From the reset state, every correctly sequenced command sequence leaves ERR = 0 and ERR_CAUSE = 0; and a command sequence that holds no RESET leaves ERR = 0 exactly when it is correctly sequenced. Cites: R316, R310. -/
def Obligations.CorrectSequencesNeverErr : Prop :=
  (∀ words, correctlySequenced words = true →
    (Arch.reset.transactAll words).err = false ∧ (Arch.reset.transactAll words).cause = .noCause) ∧
  (∀ words, (∀ c ∈ words, opField c ≠ 0) →
    ((Arch.reset.transactAll words).err = false ↔ correctlySequenced words = true))

/-- If an architectural state in phase ABSORB with the buffer in canonical form holds the message m, UPDATE x leaves one that holds m ++ [x], again in phase ABSORB and in canonical form. So after the UPDATE commands of any byte string m from the reset state, CNT is its length mod 2^64, the chaining words are the initialisation vector passed through compress with each of the floor(n / 64) full blocks in order, the valid bytes of BUF are the bytes after the last full block, and the phase is ABSORB. Cites: R38, R137. -/
def Obligations.BufferInvariantOfAMessage : Prop :=
  (∀ (a : Arch) (m : List Byte) (x : Byte), a.buf.wf = true → a.phase = .absorb → a.holds m →
    (a.update x).holds (m ++ [x]) ∧ (a.update x).phase = .absorb ∧ (a.update x).buf.wf = true) ∧
  (∀ m : List Byte, (Arch.reset.transactAll (updateWords m)).holds m ∧
    (Arch.reset.transactAll (updateWords m)).phase = .absorb)

/-- For every architectural state in phase ABSORB with the buffer in canonical form, and every byte string, the slice-level algorithm and the UPDATE commands of its bytes leave equal A, B, C, D, CNT, flags and valid buffer bytes. Cites: R132, R133, R134. -/
def Obligations.SliceUpdateEqualsByteUpdates : Prop :=
  ∀ (a : Arch) (data : List Byte), a.buf.wf = true → a.phase = .absorb →
    (a.sliceUpdate data).sameButStale (a.transactAll (updateWords data))

/-- For every architectural state in phase ABSORB with the buffer in canonical form and all byte strings x and y, the slice-level update of x ++ y leaves what the update of x and then of y leaves, but for stale bytes. Cites: R133, R302. -/
def Obligations.ChunkingDoesNotMatter : Prop :=
  ∀ (a : Arch) (x y : List Byte), a.buf.wf = true → a.phase = .absorb →
    (a.sliceUpdate (x ++ y)).sameButStale ((a.sliceUpdate x).sliceUpdate y)

/-- From every architectural state, for every byte string m of any length, the command sequence RESET, UPDATE of each byte, FINALIZE leaves chaining words whose serialisation is ser(fold compress IV (blocks(pad(m)))), CNT the length mod 2^64, PHASE = DONE and ERR = 0. HASH_STR of a zero-terminated string hashes the bytes before the first zero. Cites: R300, R301, R278, R122, R165. -/
def Obligations.HashIsTheFoldOfCompress : Prop :=
  (∀ (a : Arch) (m : List Byte), hash a m = referenceDigest m ∧
    (a.transactAll (hashWords m)).cnt = BitVec.ofNat 64 m.length ∧
    (a.transactAll (hashWords m)).phase = .done ∧ (a.transactAll (hashWords m)).err = false) ∧
  (∀ (a : Arch) (m rest : List Byte), (∀ b ∈ m, b ≠ 0) → hashStr a (m ++ 0 :: rest) = referenceDigest m)

/-- From every idle state whose port samples offer RESET, the UPDATE of each byte of m and FINALIZE, each followed by 131 idle edges, 132 edges a command answer a state with these samples taken whose outputs are cmd_ready = 1, digest_valid = 1, err = 0, err_cause = 0, the counter halves of the length, and on the digest port the bytes of ser(fold compress IV (blocks(pad(m)))). The numbers of edges, 131 and 132, are those of the reference decomposition (log entry 1). Cites: R300, R361, R13. -/
def Obligations.MachineHashesEveryMessage : Prop :=
  ∀ (s : State) (m : List Byte) (rest : List PortIn), s.activity = .idle → s.inputs = paced (hashWords m) ++ rest →
    ∃ t, runEdges (132 * (m.length + 2)) s = .next t ∧ t.inputs = rest ∧
      t.outputs = ⟨true, some (BitVec.ofNat 128 (packBytes (referenceDigest m))), true, false, 0,
        some (BitVec.ofNat 32 m.length), some (BitVec.ofNat 32 (m.length / 2 ^ 32))⟩

/-- For every byte string m of n bytes, pad(m) begins with m and 0x80, then z zero bytes with z = (55 - n) mod 64, which is the least number that makes the length of pad(m) a multiple of 64, then the 8 bytes of 8n mod 2^64, least significant first; it has floor(n / 64) + 1 blocks when n mod 64 is at most 55 and floor(n / 64) + 2 otherwise. Cites: R99. -/
def Obligations.PaddedMessageLength : Prop :=
  ∀ m : List Byte, ∃ z : Nat, z < 64 ∧ (z : Int) = (55 - (m.length : Int)) % 64 ∧
    pad m = m ++ [0x80] ++ List.replicate z 0x00 ++
      (List.range 8).map (fun k => (BitVec.ofNat 64 (8 * m.length)).extractLsb' (8 * k) 8) ∧
    (pad m).length % 64 = 0 ∧ (∀ y, (m.length + 1 + y + 8) % 64 = 0 → z ≤ y) ∧
    (blocks (pad m)).length = (if m.length % 64 ≤ 55 then m.length / 64 + 1 else m.length / 64 + 2)

/-- For every word x, every amount s in 1 to 31 and every bit j, rotl32(x, s) is ((x << s) mod 2^32) | (x >> (32 - s)), and its bit j is bit (j - s) mod 32 of x. Cites: R7. -/
def Obligations.RotationIsCircular : Prop :=
  ∀ (x : Word) (s j : Nat), 1 ≤ s → s ≤ 31 → j < 32 →
    rotl32 x s = (x <<< s) ||| (x >>> (32 - s)) ∧ (rotl32 x s).getLsbD j = x.getLsbD ((j + 32 - s) % 32)

/-- For all words x, y, z: E, G, H and I are the given formulas; bit by bit E chooses y or z by x, G chooses x or y by z; E = (x & y) | (~x & z), G = (x & z) | (y & ~z) = E(z, x, y); and the four printed examples hold. Cites: R154, R155, R156, R157. -/
def Obligations.MixingFunctionsAreTheirFormulas : Prop :=
  (∀ x y z : Word,
    mixE x y z = z ^^^ (x &&& (y ^^^ z)) ∧ mixE x y z = (x &&& y) ||| (~~~x &&& z) ∧
    (∀ n < 32, (mixE x y z).getLsbD n = if x.getLsbD n then y.getLsbD n else z.getLsbD n) ∧
    mixG x y z = y ^^^ (z &&& (x ^^^ y)) ∧ mixG x y z = (x &&& z) ||| (y &&& ~~~z) ∧ mixG x y z = mixE z x y ∧
    (∀ n < 32, (mixG x y z).getLsbD n = if z.getLsbD n then x.getLsbD n else y.getLsbD n) ∧
    mixH x y z = x ^^^ y ^^^ z ∧ mixI x y z = y ^^^ (x ||| ~~~z)) ∧
  mixE 0xefcdab89 0x98badcfe 0x10325476 = 0x98badcfe ∧ mixG 0xefcdab89 0x98badcfe 0x10325476 = 0x88888888 ∧
  mixH 0xefcdab89 0x98badcfe 0x10325476 = 0x67452301 ∧ mixI 0xefcdab89 0x98badcfe 0x10325476 = 0x77777777

/-- For every counter and every 64-bit addend, given by its halves, the new low half is the sum of the low halves mod 2^32, the new high half the sum of the high halves and the carry mod 2^32, the carry being 1 exactly when the low halves sum to 2^32 or more; the 64-bit counter so obtained is the sum mod 2^64. Cites: R10. -/
def Obligations.CounterHalvesAddModulo64 : Prop :=
  ∀ (a : Arch) (yLo yHi : Word),
    (a.addCnt yLo yHi).cntLo.toNat = (a.cntLo.toNat + yLo.toNat) % 2 ^ 32 ∧
    (a.addCnt yLo yHi).cntHi.toNat =
      (a.cntHi.toNat + yHi.toNat + (if 2 ^ 32 ≤ a.cntLo.toNat + yLo.toNat then 1 else 0)) % 2 ^ 32 ∧
    (a.addCnt yLo yHi).cnt = a.cnt + (yHi ++ yLo : BitVec 64)

/-- For every counter, L_LO = (lo << 3) mod 2^32 and L_HI = ((hi << 3) mod 2^32) | (lo >> 29) together are (CNT << 3) mod 2^64 = (CNT * 8) mod 2^64; the three top bits of CNT are lost. Cites: R11. -/
def Obligations.LengthHalvesAreEightTimesTheCount : Prop :=
  ∀ a : Arch,
    shl3Lo a.cntLo = a.cntLo <<< 3 ∧ shl3Hi a.cntLo a.cntHi = (a.cntHi <<< 3) ||| (a.cntLo >>> 29) ∧
    (shl3Hi a.cntLo a.cntHi ++ shl3Lo a.cntLo : BitVec 64) = a.cnt <<< 3 ∧
    (shl3Hi a.cntLo a.cntHi ++ shl3Lo a.cntLo : BitVec 64).toNat = (8 * a.cnt.toNat) % 2 ^ 64

/-- For every buffer in canonical form: after a byte write the written index reads the byte and every other index reads as before; after a word write at 4k, byte 4k + j reads bits 8j+7 to 8j of the word for j in 0 to 3, every other index reads as before, and the word read at 4k is the word; both writes keep the canonical form; a word read is the four bytes composed least significant first. Cites: R63, R64, R65, R67. -/
def Obligations.BufferReadAfterWrite : Prop :=
  ∀ m : Memory, m.wf = true →
    (∀ (a j : BitVec 6) (x : Byte), memRead1 (memWrite1 m a x) j = if j = a then x else memRead1 m j) ∧
    (∀ (k : BitVec 4) (v : Word) (j : BitVec 6), memRead1 (memWrite4 m k v) j =
      if j.toNat / 4 = k.toNat then v.extractLsb' (8 * (j.toNat % 4)) 8 else memRead1 m j) ∧
    (∀ (k : BitVec 4) (v : Word), memRead4 (memWrite4 m k v) k = v) ∧
    (∀ (a : BitVec 6) (x : Byte), (memWrite1 m a x).wf = true) ∧
    (∀ (k : BitVec 4) (v : Word), (memWrite4 m k v).wf = true) ∧
    (∀ k : BitVec 4, (memRead4 m k).toNat = (memRead1 m (wordAddr k 0)).toNat +
      2 ^ 8 * (memRead1 m (wordAddr k 1)).toNat + 2 ^ 16 * (memRead1 m (wordAddr k 2)).toNat +
      2 ^ 24 * (memRead1 m (wordAddr k 3)).toNat)

/-- If two buffers are in canonical form and read the same byte at each of the 64 indices, they are the same list. The canonical form is the model's (log entry 12). Cites: R37, 20_memory.md. -/
def Obligations.EqualReadsAreEqualBuffers : Prop :=
  ∀ m m' : Memory, m.wf = true → m'.wf = true → (∀ j, memRead1 m j = memRead1 m' j) → m = m'

/-- For every state: dg[4j + t] is bits 8t+7 to 8t of H[j] for j, t in 0 to 3, and there are 16 bytes; while cmd_ready = 1 the digest port is the 128-bit number D : C : B : A, whose bits 8k+7 to 8k are dg[k]. Cites: R101. -/
def Obligations.DigestPortIsTheSerialisedWords : Prop :=
  ∀ s : State,
    (serialise s.arch.h).length = 16 ∧
    (∀ j < 4, ∀ t < 4, (serialise s.arch.h)[4 * j + t]? =
      some (([s.arch.h.A, s.arch.h.B, s.arch.h.C, s.arch.h.D].getD j 0).extractLsb' (8 * t) 8)) ∧
    (∀ k < 16, (serialise s.arch.h)[k]? =
      some ((s.arch.h.D ++ s.arch.h.C ++ s.arch.h.B ++ s.arch.h.A : BitVec 128).extractLsb' (8 * k) 8)) ∧
    (s.ready = true → s.outputs.digest = some (s.arch.h.D ++ s.arch.h.C ++ s.arch.h.B ++ s.arch.h.A : BitVec 128))

/-- In every state cmd_ready is 1 exactly when no command is in progress, err and err_cause show ERR and ERR_CAUSE; while ready digest_valid is PHASE and the counter outputs are the counter halves; while busy digest_valid is 0 and digest, cnt_lo and cnt_hi have no value the model states. Cites: R93, R91. -/
def Obligations.OutputsWhileReadyAndBusy : Prop :=
  ∀ s : State, (s.outputs.cmdReady = true ↔ s.activity = .idle) ∧ s.outputs.err = s.arch.err ∧
    (s.outputs.errCause = match s.arch.cause with
      | .noCause => 0
      | .updateAfterFinalize => 1
      | .finalizeTwice => 2
      | .reservedOpcode => 3) ∧
    (s.activity = .idle → (s.outputs.digestValid = true ↔ s.arch.phase = .done) ∧
      s.outputs.cntLo = some s.arch.cntLo ∧ s.outputs.cntHi = some s.arch.cntHi) ∧
    (s.activity ≠ .idle → s.outputs.digestValid = false ∧ s.outputs.digest = none ∧ s.outputs.cntLo = none ∧
      s.outputs.cntHi = none)

/-- For every byte string dg, the decoder of R304 applied to digest_to_hex(dg) gives dg; the string has two characters a byte, and the four printed examples hold. The rule is the case of 16 bytes; other lengths are the model's extension (log entry 17). Cites: R303, R304. -/
def Obligations.HexRoundTrip : Prop :=
  (∀ dg : List Byte, hexToDigest (digestToHex dg) = some dg ∧ (digestToHex dg).length = 2 * dg.length) ∧
  digestToHex [0x00] = [0x30, 0x30] ∧ digestToHex [0x0f] = [0x30, 0x66] ∧ digestToHex [0xa5] = [0x61, 0x35] ∧
  digestToHex [0xff] = [0x66, 0x66]

/-- For every schedule of a list of instances: if the system's run answers, each instance is in the state that its own number of edges, run alone, answers; and if every instance's own edges run alone answer a next state, the system's run answers. Cites: R327, R79. -/
def Obligations.InstancesRunAsIfAlone : Prop :=
  (∀ (sched : List Nat) (sys sys' : System), sysRun sched sys = .next sys' → sys'.length = sys.length ∧
    ∀ (k : Nat) (s : State), sys[k]? = some s → ∃ t, runEdges (sched.count k) s = .next t ∧ sys'[k]? = some t) ∧
  (∀ (sched : List Nat) (sys : System),
    (∀ (k : Nat) (s : State), sys[k]? = some s → ∃ t, runEdges (sched.count k) s = .next t) →
    ∃ sys', sysRun sched sys = .next sys')
end

