-- ==== Sys2Proof/Laws/State.lean ====
section
/-! SUPPORT. One lemma per field per update, true by rfl and tagged simp: no later proof unfolds a record update. -/

namespace Sys2Proof.Machine

/-! ### Updates of the whole state -/

@[simp] theorem mapArch_arch (s : State) (f : Arch → Arch) : (s.mapArch f).arch = f s.arch := rfl
@[simp] theorem mapArch_acc (s : State) (f : Arch → Arch) : (s.mapArch f).acc = s.acc := rfl
@[simp] theorem mapArch_stepReg (s : State) (f : Arch → Arch) : (s.mapArch f).stepReg = s.stepReg := rfl
@[simp] theorem mapArch_activity (s : State) (f : Arch → Arch) : (s.mapArch f).activity = s.activity := rfl
@[simp] theorem mapArch_inputs (s : State) (f : Arch → Arch) : (s.mapArch f).inputs = s.inputs := rfl
@[simp] theorem mapArch_fresh (s : State) (f : Arch → Arch) : (s.mapArch f).fresh = s.fresh := rfl

@[simp] theorem dropSequencer_arch (s : State) : (s.dropSequencer).arch = s.arch := rfl
@[simp] theorem dropSequencer_activity (s : State) : (s.dropSequencer).activity = s.activity := rfl
@[simp] theorem dropSequencer_inputs (s : State) : (s.dropSequencer).inputs = s.inputs := rfl
@[simp] theorem dropSequencer_fresh (s : State) : (s.dropSequencer).fresh = s.fresh + 1 := rfl

@[simp] theorem toReset_arch (s : State) : (s.toReset).arch = Arch.reset := rfl
@[simp] theorem toReset_activity (s : State) : (s.toReset).activity = .idle := rfl
@[simp] theorem toReset_inputs (s : State) : (s.toReset).inputs = s.inputs := rfl
@[simp] theorem toReset_fresh (s : State) : (s.toReset).fresh = s.fresh + 1 := rfl

@[simp] theorem startCompress_arch (s : State) (k : Activity) : (s.startCompress k).arch = s.arch := rfl
@[simp] theorem startCompress_acc (s : State) (k : Activity) : (s.startCompress k).acc = Accum.ofChain s.arch.h := rfl
@[simp] theorem startCompress_stepReg (s : State) (k : Activity) : (s.startCompress k).stepReg = 0 := rfl
@[simp] theorem startCompress_activity (s : State) (k : Activity) : (s.startCompress k).activity = k := rfl
@[simp] theorem startCompress_inputs (s : State) (k : Activity) : (s.startCompress k).inputs = s.inputs := rfl
@[simp] theorem startCompress_fresh (s : State) (k : Activity) : (s.startCompress k).fresh = s.fresh := rfl

@[simp] theorem runPad2_arch (s : State) : (s.runPad2).arch = s.arch.padFresh := rfl
@[simp] theorem runPad2_acc (s : State) : (s.runPad2).acc = Accum.ofChain s.arch.h := rfl
@[simp] theorem runPad2_stepReg (s : State) : (s.runPad2).stepReg = 0 := rfl
@[simp] theorem runPad2_activity (s : State) : (s.runPad2).activity = .compT := rfl
@[simp] theorem runPad2_inputs (s : State) : (s.runPad2).inputs = s.inputs := rfl
@[simp] theorem runPad2_fresh (s : State) : (s.runPad2).fresh = s.fresh := rfl

@[simp] theorem seqStep_arch (s : State) (x0 : WReg) (f : Word → Word → Word → Word) (k : BitVec 4) (const : Word)
    (amount : Nat) (next : BitVec 7) : (s.seqStep x0 f k const amount next).arch = s.arch := rfl
@[simp] theorem seqStep_stepReg (s : State) (x0 : WReg) (f : Word → Word → Word → Word) (k : BitVec 4) (const : Word)
    (amount : Nat) (next : BitVec 7) : (s.seqStep x0 f k const amount next).stepReg = next := rfl
@[simp] theorem seqStep_activity (s : State) (x0 : WReg) (f : Word → Word → Word → Word) (k : BitVec 4) (const : Word)
    (amount : Nat) (next : BitVec 7) : (s.seqStep x0 f k const amount next).activity = s.activity := rfl
@[simp] theorem seqStep_inputs (s : State) (x0 : WReg) (f : Word → Word → Word → Word) (k : BitVec 4) (const : Word)
    (amount : Nat) (next : BitVec 7) : (s.seqStep x0 f k const amount next).inputs = s.inputs := rfl
@[simp] theorem seqStep_fresh (s : State) (x0 : WReg) (f : Word → Word → Word → Word) (k : BitVec 4) (const : Word)
    (amount : Nat) (next : BitVec 7) : (s.seqStep x0 f k const amount next).fresh = s.fresh := rfl

@[simp] theorem sampled_arch (s : State) : (s.sampled).arch = s.arch := rfl
@[simp] theorem sampled_acc (s : State) : (s.sampled).acc = s.acc := rfl
@[simp] theorem sampled_stepReg (s : State) : (s.sampled).stepReg = s.stepReg := rfl
@[simp] theorem sampled_activity (s : State) : (s.sampled).activity = s.activity := rfl
@[simp] theorem sampled_inputs (s : State) : (s.sampled).inputs = s.inputs.tail := rfl
@[simp] theorem sampled_fresh (s : State) : (s.sampled).fresh = s.fresh := rfl

/-! ### Setting one field, whatever the value (a variable, so that nothing is unfolded) -/

theorem with_h_cntLo (a : Arch) (x : Chain) : ({ a with h := x } : Arch).cntLo = a.cntLo := rfl
theorem with_h_cntHi (a : Arch) (x : Chain) : ({ a with h := x } : Arch).cntHi = a.cntHi := rfl
theorem with_h_buf (a : Arch) (x : Chain) : ({ a with h := x } : Arch).buf = a.buf := rfl
theorem with_h_phase (a : Arch) (x : Chain) : ({ a with h := x } : Arch).phase = a.phase := rfl
theorem with_h_err (a : Arch) (x : Chain) : ({ a with h := x } : Arch).err = a.err := rfl
theorem with_h_cause (a : Arch) (x : Chain) : ({ a with h := x } : Arch).cause = a.cause := rfl
theorem with_buf_h (a : Arch) (x : Memory) : ({ a with buf := x } : Arch).h = a.h := rfl
theorem with_buf_cntLo (a : Arch) (x : Memory) : ({ a with buf := x } : Arch).cntLo = a.cntLo := rfl
theorem with_buf_cntHi (a : Arch) (x : Memory) : ({ a with buf := x } : Arch).cntHi = a.cntHi := rfl
theorem with_buf_phase (a : Arch) (x : Memory) : ({ a with buf := x } : Arch).phase = a.phase := rfl
theorem with_buf_err (a : Arch) (x : Memory) : ({ a with buf := x } : Arch).err = a.err := rfl
theorem with_buf_cause (a : Arch) (x : Memory) : ({ a with buf := x } : Arch).cause = a.cause := rfl

/-! ### Updates of the architectural state -/

@[simp] theorem addCnt_h (a : Arch) (yLo yHi : Word) : (a.addCnt yLo yHi).h = a.h := rfl
@[simp] theorem addCnt_cntLo (a : Arch) (yLo yHi : Word) : (a.addCnt yLo yHi).cntLo = add64Lo a.cntLo yLo := rfl
@[simp] theorem addCnt_cntHi (a : Arch) (yLo yHi : Word) : (a.addCnt yLo yHi).cntHi = add64Hi a.cntLo a.cntHi yLo yHi := rfl
@[simp] theorem addCnt_buf (a : Arch) (yLo yHi : Word) : (a.addCnt yLo yHi).buf = a.buf := rfl
@[simp] theorem addCnt_phase (a : Arch) (yLo yHi : Word) : (a.addCnt yLo yHi).phase = a.phase := rfl
@[simp] theorem addCnt_err (a : Arch) (yLo yHi : Word) : (a.addCnt yLo yHi).err = a.err := rfl
@[simp] theorem addCnt_cause (a : Arch) (yLo yHi : Word) : (a.addCnt yLo yHi).cause = a.cause := rfl

@[simp] theorem writeByte_h (a : Arch) (x : Byte) : (a.writeByte x).h = a.h := rfl
@[simp] theorem writeByte_cntLo (a : Arch) (x : Byte) : (a.writeByte x).cntLo = add64Lo a.cntLo 1 := rfl
@[simp] theorem writeByte_cntHi (a : Arch) (x : Byte) : (a.writeByte x).cntHi = add64Hi a.cntLo a.cntHi 1 0 := rfl
@[simp] theorem writeByte_buf (a : Arch) (x : Byte) : (a.writeByte x).buf = memWrite1 a.buf a.used x := rfl
@[simp] theorem writeByte_phase (a : Arch) (x : Byte) : (a.writeByte x).phase = a.phase := rfl
@[simp] theorem writeByte_err (a : Arch) (x : Byte) : (a.writeByte x).err = a.err := rfl
@[simp] theorem writeByte_cause (a : Arch) (x : Byte) : (a.writeByte x).cause = a.cause := rfl

@[simp] theorem padOne_h (a : Arch) : (a.padOne).h = a.h := with_buf_h a _
@[simp] theorem padOne_cntLo (a : Arch) : (a.padOne).cntLo = a.cntLo := with_buf_cntLo a _
@[simp] theorem padOne_cntHi (a : Arch) : (a.padOne).cntHi = a.cntHi := with_buf_cntHi a _
@[simp] theorem padOne_buf (a : Arch) : (a.padOne).buf = a.writeLength (zeroFill a.terminated (a.used.toNat + 1) 55) := rfl
@[simp] theorem padOne_phase (a : Arch) : (a.padOne).phase = a.phase := with_buf_phase a _
@[simp] theorem padOne_err (a : Arch) : (a.padOne).err = a.err := with_buf_err a _
@[simp] theorem padOne_cause (a : Arch) : (a.padOne).cause = a.cause := with_buf_cause a _

@[simp] theorem padFirst_h (a : Arch) : (a.padFirst).h = a.h := with_buf_h a _
@[simp] theorem padFirst_cntLo (a : Arch) : (a.padFirst).cntLo = a.cntLo := with_buf_cntLo a _
@[simp] theorem padFirst_cntHi (a : Arch) : (a.padFirst).cntHi = a.cntHi := with_buf_cntHi a _
@[simp] theorem padFirst_buf (a : Arch) : (a.padFirst).buf = zeroFill a.terminated (a.used.toNat + 1) 63 := rfl
@[simp] theorem padFirst_phase (a : Arch) : (a.padFirst).phase = a.phase := with_buf_phase a _
@[simp] theorem padFirst_err (a : Arch) : (a.padFirst).err = a.err := with_buf_err a _
@[simp] theorem padFirst_cause (a : Arch) : (a.padFirst).cause = a.cause := with_buf_cause a _

@[simp] theorem padFresh_h (a : Arch) : (a.padFresh).h = a.h := with_buf_h a _
@[simp] theorem padFresh_cntLo (a : Arch) : (a.padFresh).cntLo = a.cntLo := with_buf_cntLo a _
@[simp] theorem padFresh_cntHi (a : Arch) : (a.padFresh).cntHi = a.cntHi := with_buf_cntHi a _
@[simp] theorem padFresh_buf (a : Arch) : (a.padFresh).buf = a.writeLength clearBuf := rfl
@[simp] theorem padFresh_phase (a : Arch) : (a.padFresh).phase = a.phase := with_buf_phase a _
@[simp] theorem padFresh_err (a : Arch) : (a.padFresh).err = a.err := with_buf_err a _
@[simp] theorem padFresh_cause (a : Arch) : (a.padFresh).cause = a.cause := with_buf_cause a _

@[simp] theorem feedForward_h (a : Arch) (w : Accum) : (a.feedForward w).h = a.h.addAccum w := rfl
@[simp] theorem feedForward_cntLo (a : Arch) (w : Accum) : (a.feedForward w).cntLo = a.cntLo := rfl
@[simp] theorem feedForward_cntHi (a : Arch) (w : Accum) : (a.feedForward w).cntHi = a.cntHi := rfl
@[simp] theorem feedForward_buf (a : Arch) (w : Accum) : (a.feedForward w).buf = a.buf := rfl
@[simp] theorem feedForward_phase (a : Arch) (w : Accum) : (a.feedForward w).phase = a.phase := rfl
@[simp] theorem feedForward_err (a : Arch) (w : Accum) : (a.feedForward w).err = a.err := rfl
@[simp] theorem feedForward_cause (a : Arch) (w : Accum) : (a.feedForward w).cause = a.cause := rfl

@[simp] theorem compressBuf_h (a : Arch) : (a.compressBuf).h = compress a.h (memBlock a.buf) := rfl
@[simp] theorem compressBuf_cntLo (a : Arch) : (a.compressBuf).cntLo = a.cntLo := with_h_cntLo a _
@[simp] theorem compressBuf_cntHi (a : Arch) : (a.compressBuf).cntHi = a.cntHi := with_h_cntHi a _
@[simp] theorem compressBuf_buf (a : Arch) : (a.compressBuf).buf = a.buf := with_h_buf a _
@[simp] theorem compressBuf_phase (a : Arch) : (a.compressBuf).phase = a.phase := with_h_phase a _
@[simp] theorem compressBuf_err (a : Arch) : (a.compressBuf).err = a.err := with_h_err a _
@[simp] theorem compressBuf_cause (a : Arch) : (a.compressBuf).cause = a.cause := with_h_cause a _

@[simp] theorem arch_reset_h : (Arch.reset).h = Chain.iv := rfl
@[simp] theorem arch_reset_cntLo : (Arch.reset).cntLo = 0 := rfl
@[simp] theorem arch_reset_cntHi : (Arch.reset).cntHi = 0 := rfl
@[simp] theorem arch_reset_buf : (Arch.reset).buf = [] := rfl
@[simp] theorem arch_reset_phase : (Arch.reset).phase = .absorb := rfl
@[simp] theorem arch_reset_err : (Arch.reset).err = false := rfl
@[simp] theorem arch_reset_cause : (Arch.reset).cause = .noCause := rfl

/-! ### Accumulators -/

@[simp] theorem accum_get_a (w : Accum) : w.get .a = w.a := rfl
@[simp] theorem accum_get_b (w : Accum) : w.get .b = w.b := rfl
@[simp] theorem accum_get_c (w : Accum) : w.get .c = w.c := rfl
@[simp] theorem accum_get_d (w : Accum) : w.get .d = w.d := rfl
@[simp] theorem accum_set_a_a (w : Accum) (v : Word) : (w.set .a v).a = v := rfl
@[simp] theorem accum_set_a_b (w : Accum) (v : Word) : (w.set .a v).b = w.b := rfl
@[simp] theorem accum_set_a_c (w : Accum) (v : Word) : (w.set .a v).c = w.c := rfl
@[simp] theorem accum_set_a_d (w : Accum) (v : Word) : (w.set .a v).d = w.d := rfl
@[simp] theorem accum_set_b_a (w : Accum) (v : Word) : (w.set .b v).a = w.a := rfl
@[simp] theorem accum_set_b_b (w : Accum) (v : Word) : (w.set .b v).b = v := rfl
@[simp] theorem accum_set_b_c (w : Accum) (v : Word) : (w.set .b v).c = w.c := rfl
@[simp] theorem accum_set_b_d (w : Accum) (v : Word) : (w.set .b v).d = w.d := rfl
@[simp] theorem accum_set_c_a (w : Accum) (v : Word) : (w.set .c v).a = w.a := rfl
@[simp] theorem accum_set_c_b (w : Accum) (v : Word) : (w.set .c v).b = w.b := rfl
@[simp] theorem accum_set_c_c (w : Accum) (v : Word) : (w.set .c v).c = v := rfl
@[simp] theorem accum_set_c_d (w : Accum) (v : Word) : (w.set .c v).d = w.d := rfl
@[simp] theorem accum_set_d_a (w : Accum) (v : Word) : (w.set .d v).a = w.a := rfl
@[simp] theorem accum_set_d_b (w : Accum) (v : Word) : (w.set .d v).b = w.b := rfl
@[simp] theorem accum_set_d_c (w : Accum) (v : Word) : (w.set .d v).c = w.c := rfl
@[simp] theorem accum_set_d_d (w : Accum) (v : Word) : (w.set .d v).d = v := rfl
@[simp] theorem wreg_next_a : WReg.next .a = .b := rfl
@[simp] theorem wreg_next_b : WReg.next .b = .c := rfl
@[simp] theorem wreg_next_c : WReg.next .c = .d := rfl
@[simp] theorem wreg_next_d : WReg.next .d = .a := rfl
@[simp] theorem ofChain_a (h : Chain) : (Accum.ofChain h).a = h.A := rfl
@[simp] theorem addAccum_A (h : Chain) (w : Accum) : (h.addAccum w).A = h.A + w.a := rfl
@[simp] theorem ofChain_b (h : Chain) : (Accum.ofChain h).b = h.B := rfl
@[simp] theorem addAccum_B (h : Chain) (w : Accum) : (h.addAccum w).B = h.B + w.b := rfl
@[simp] theorem ofChain_c (h : Chain) : (Accum.ofChain h).c = h.C := rfl
@[simp] theorem addAccum_C (h : Chain) (w : Accum) : (h.addAccum w).C = h.C + w.c := rfl
@[simp] theorem ofChain_d (h : Chain) : (Accum.ofChain h).d = h.D := rfl
@[simp] theorem addAccum_D (h : Chain) (w : Accum) : (h.addAccum w).D = h.D + w.d := rfl

/-! ### The misuse entry -/

@[simp] theorem raiseMisuse_h (a : Arch) (c : Cause) : (a.raiseMisuse c).h = a.h := by
  unfold Arch.raiseMisuse; split <;> rfl
@[simp] theorem raiseMisuse_cntLo (a : Arch) (c : Cause) : (a.raiseMisuse c).cntLo = a.cntLo := by
  unfold Arch.raiseMisuse; split <;> rfl
@[simp] theorem raiseMisuse_cntHi (a : Arch) (c : Cause) : (a.raiseMisuse c).cntHi = a.cntHi := by
  unfold Arch.raiseMisuse; split <;> rfl
@[simp] theorem raiseMisuse_buf (a : Arch) (c : Cause) : (a.raiseMisuse c).buf = a.buf := by
  unfold Arch.raiseMisuse; split <;> rfl
@[simp] theorem raiseMisuse_phase (a : Arch) (c : Cause) : (a.raiseMisuse c).phase = a.phase := by
  unfold Arch.raiseMisuse; split <;> rfl
@[simp] theorem raiseMisuse_err (a : Arch) (c : Cause) : (a.raiseMisuse c).err = true := by
  unfold Arch.raiseMisuse; split <;> simp_all
@[simp] theorem raiseMisuse_cause (a : Arch) (c : Cause) :
    (a.raiseMisuse c).cause = if a.err then a.cause else c := by
  unfold Arch.raiseMisuse; split <;> rfl

end Sys2Proof.Machine
end

