-- ==== Sys2Proof/Laws/Memory.lean ====
section
/-! SUPPORT. The laws of the buffer: a read after a write, the canonical form, the zero fill, equality. -/

namespace Sys2Proof.Machine

/-! ### Cells -/

theorem cellAt_eq_zero_of_lt {m : Memory} {lo j : Nat} (h : wfFrom lo m = true) (hj : j < lo) :
    cellAt m j = 0 := by
  induction m generalizing lo with
  | nil => rfl
  | cons c rest ih =>
    obtain ⟨b, v⟩ := c
    simp only [wfFrom, Bool.and_eq_true, decide_eq_true_eq] at h
    rw [cellAt, if_neg (by omega)]
    exact ih h.2 (by omega)

theorem wfFrom_mono {m : Memory} {lo lo' : Nat} (h : wfFrom lo m = true) (hl : lo' ≤ lo) :
    wfFrom lo' m = true := by
  cases m with
  | nil => rfl
  | cons c rest =>
    obtain ⟨b, v⟩ := c
    simp only [wfFrom, Bool.and_eq_true, decide_eq_true_eq] at h ⊢
    exact ⟨⟨⟨by omega, h.1.1.2⟩, h.1.2⟩, h.2⟩

/-- A read after a write, on a buffer in canonical form. -/
theorem cellAt_putCell {m : Memory} {lo : Nat} (h : wfFrom lo m = true) (j : Nat) (x : Byte) (i : Nat) :
    cellAt (putCell m j x) i = if i = j then x else cellAt m i := by
  induction m generalizing lo with
  | nil =>
    rw [putCell]
    by_cases hx : x = 0
    · rw [if_pos hx, hx]; simp [cellAt]
    · rw [if_neg hx]; simp [cellAt]
  | cons c rest ih =>
    obtain ⟨b, v⟩ := c
    simp only [wfFrom, Bool.and_eq_true, decide_eq_true_eq] at h
    have hrest : ∀ k, k ≤ b → cellAt rest k = 0 := fun k hk => cellAt_eq_zero_of_lt h.2 (by omega)
    rw [putCell]
    by_cases h1 : j < b
    · rw [if_pos h1]
      by_cases hx : x = 0
      · rw [if_pos hx, hx]
        by_cases hij : i = j
        · rw [if_pos hij, cellAt, if_neg (by omega), hrest i (by omega)]
        · rw [if_neg hij]
      · rw [if_neg hx, cellAt]
    · rw [if_neg h1]
      by_cases h2 : j = b
      · rw [if_pos h2]
        by_cases hx : x = 0
        · rw [if_pos hx, hx]
          by_cases hij : i = j
          · rw [if_pos hij, hrest i (by omega)]
          · rw [if_neg hij, cellAt, if_neg (by omega)]
        · rw [if_neg hx, cellAt, cellAt]
          by_cases hij : i = j
          · rw [if_pos hij, if_pos hij]
          · rw [if_neg hij, if_neg hij, if_neg (by omega)]
      · rw [if_neg h2, cellAt, ih h.2, cellAt]
        by_cases hib : i = b
        · rw [if_pos hib, if_pos hib, if_neg (by omega)]
        · rw [if_neg hib, if_neg hib]

theorem wfFrom_cons {lo b : Nat} {v : Byte} {rest : Memory} :
    wfFrom lo ((b, v) :: rest) = true ↔ lo ≤ b ∧ b < 64 ∧ v ≠ 0 ∧ wfFrom (b + 1) rest = true := by
  simp only [wfFrom, Bool.and_eq_true, decide_eq_true_eq, bne_iff_ne, and_assoc]

theorem wfFrom_putCell {m : Memory} {lo : Nat} (h : wfFrom lo m = true) {j : Nat} (hlo : lo ≤ j) (hj : j < 64)
    (x : Byte) : wfFrom lo (putCell m j x) = true := by
  induction m generalizing lo with
  | nil =>
    rw [putCell]
    by_cases hx : x = 0
    · rw [if_pos hx]; rfl
    · rw [if_neg hx]; exact wfFrom_cons.2 ⟨hlo, hj, hx, rfl⟩
  | cons c rest ih =>
    obtain ⟨b, v⟩ := c
    obtain ⟨h1, h2, h3, h4⟩ := wfFrom_cons.1 h
    rw [putCell]
    by_cases hjb : j < b
    · rw [if_pos hjb]
      by_cases hx : x = 0
      · rw [if_pos hx]; exact h
      · rw [if_neg hx]; exact wfFrom_cons.2 ⟨hlo, hj, hx, wfFrom_cons.2 ⟨by omega, h2, h3, h4⟩⟩
    · rw [if_neg hjb]
      by_cases hj2 : j = b
      · rw [if_pos hj2]
        by_cases hx : x = 0
        · rw [if_pos hx]; exact wfFrom_mono h4 (by omega)
        · rw [if_neg hx]; exact wfFrom_cons.2 ⟨hlo, hj, hx, hj2 ▸ h4⟩
      · rw [if_neg hj2]; exact wfFrom_cons.2 ⟨h1, h2, h3, ih h4 (by omega)⟩

/-! ### Byte accesses -/

/-- The canonical form is kept by a byte write. -/
theorem wf_memWrite1 {m : Memory} (h : m.wf = true) (a : BitVec 6) (x : Byte) : (memWrite1 m a x).wf = true :=
  wfFrom_putCell h (Nat.zero_le _) a.isLt x

/-- A byte read after a byte write (20_memory.md R63 to R65). -/
theorem memRead1_memWrite1 {m : Memory} (h : m.wf = true) (a : BitVec 6) (x : Byte) (j : BitVec 6) :
    memRead1 (memWrite1 m a x) j = if j = a then x else memRead1 m j := by
  have := cellAt_putCell h a.toNat x j.toNat
  simpa [memRead1, memWrite1, BitVec.toNat_inj] using this

theorem memRead1_nil (j : BitVec 6) : memRead1 [] j = 0 := rfl

/-! ### Word accesses -/

/-- The canonical form is kept by a word write. -/
theorem wf_memWrite4 {m : Memory} (h : m.wf = true) (k : BitVec 4) (v : Word) : (memWrite4 m k v).wf = true :=
  wf_memWrite1 (wf_memWrite1 (wf_memWrite1 (wf_memWrite1 h _ _) _ _) _ _) _ _

theorem wordAddr_toNat (k : BitVec 4) {j : Nat} (hj : j < 4) : (wordAddr k j).toNat = 4 * k.toNat + j := by
  have := k.isLt
  simp only [wordAddr, BitVec.toNat_ofNat]
  omega

theorem eq_wordAddr_iff (i : BitVec 6) (k : BitVec 4) {j : Nat} (hj : j < 4) :
    i = wordAddr k j ↔ i.toNat = 4 * k.toNat + j := by
  rw [← BitVec.toNat_inj, wordAddr_toNat k hj]

/-- A byte read after a word write: byte `j` of the word at `4k + j`, every other byte as before
(20_memory.md R64). -/
theorem memRead1_memWrite4 {m : Memory} (h : m.wf = true) (k : BitVec 4) (v : Word) (i : BitVec 6) :
    memRead1 (memWrite4 m k v) i =
      if i.toNat / 4 = k.toNat then le32Byte v (i.toNat % 4) else memRead1 m i := by
  have h0 := wf_memWrite1 h (wordAddr k 0) (le32Byte v 0)
  have h1 := wf_memWrite1 h0 (wordAddr k 1) (le32Byte v 1)
  have h2 := wf_memWrite1 h1 (wordAddr k 2) (le32Byte v 2)
  rw [memWrite4, memRead1_memWrite1 h2, memRead1_memWrite1 h1, memRead1_memWrite1 h0, memRead1_memWrite1 h]
  simp only [eq_wordAddr_iff i k (by omega : 0 < 4), eq_wordAddr_iff i k (by omega : 1 < 4),
    eq_wordAddr_iff i k (by omega : 2 < 4), eq_wordAddr_iff i k (by omega : 3 < 4)]
  by_cases hk : i.toNat / 4 = k.toNat
  · have hcase : i.toNat % 4 = 0 ∨ i.toNat % 4 = 1 ∨ i.toNat % 4 = 2 ∨ i.toNat % 4 = 3 := by omega
    obtain hr | hr | hr | hr := hcase
    · rw [if_neg (by omega), if_neg (by omega), if_neg (by omega), if_pos (by omega), if_pos hk, hr]
    · rw [if_neg (by omega), if_neg (by omega), if_pos (by omega), if_pos hk, hr]
    · rw [if_neg (by omega), if_pos (by omega), if_pos hk, hr]
    · rw [if_pos (by omega), if_pos hk, hr]
  · rw [if_neg (by omega), if_neg (by omega), if_neg (by omega), if_neg (by omega), if_neg hk]

/-- The bytes of a word put together again (00_scope.md R9: `le32_word` is the inverse of `le32_bytes`). -/
theorem le32Word_le32Byte (v : Word) :
    le32Word (le32Byte v 0) (le32Byte v 1) (le32Byte v 2) (le32Byte v 3) = v := by
  ext i hi
  simp only [le32Word, le32Byte, BitVec.getElem_or, BitVec.getElem_shiftLeft, BitVec.getElem_setWidth,
    BitVec.getLsbD_extractLsb']
  interval_cases i <;> simp

/-! ### Zero fill -/

theorem wf_zeroCount {m : Memory} (h : m.wf = true) (lo n : Nat) : (zeroCount m lo n).wf = true := by
  induction n with
  | zero => exact h
  | succ n ih => exact wf_memWrite1 ih _ _

theorem wf_zeroFill {m : Memory} (h : m.wf = true) (lo hi : Nat) : (zeroFill m lo hi).wf = true :=
  wf_zeroCount h _ _

theorem memRead1_zeroCount {m : Memory} (h : m.wf = true) (lo n : Nat) (hb : lo + n ≤ 64) (i : BitVec 6) :
    memRead1 (zeroCount m lo n) i = if lo ≤ i.toNat ∧ i.toNat < lo + n then 0 else memRead1 m i := by
  induction n with
  | zero => rw [zeroCount, if_neg (by omega)]
  | succ n ih =>
    rw [zeroCount, memRead1_memWrite1 (wf_zeroCount h _ _), ih (by omega)]
    have hi : i = BitVec.ofNat 6 (lo + n) ↔ i.toNat = lo + n := by
      rw [← BitVec.toNat_inj, BitVec.toNat_ofNat, Nat.mod_eq_of_lt (by omega)]
    simp only [hi]
    by_cases h1 : i.toNat = lo + n
    · rw [if_pos h1, if_pos (by omega)]
    · rw [if_neg h1]
      by_cases h2 : lo ≤ i.toNat ∧ i.toNat < lo + n
      · rw [if_pos h2, if_pos (by omega)]
      · rw [if_neg h2, if_neg (by omega)]

/-- A read after a zero fill: 0x00 from `lo` to `hi`, every other byte as before. -/
theorem memRead1_zeroFill {m : Memory} (h : m.wf = true) (lo hi : Nat) (hb : hi ≤ 63) (hl : lo ≤ 64)
    (i : BitVec 6) :
    memRead1 (zeroFill m lo hi) i = if lo ≤ i.toNat ∧ i.toNat ≤ hi then 0 else memRead1 m i := by
  rw [zeroFill, memRead1_zeroCount h lo _ (by omega)]
  congr 1
  exact propext ⟨fun h => by omega, fun h => by omega⟩

/-! ### Equality -/

theorem eq_of_cellAt {m m' : Memory} {lo : Nat} (h : wfFrom lo m = true) (h' : wfFrom lo m' = true)
    (he : ∀ j, lo ≤ j → j < 64 → cellAt m j = cellAt m' j) : m = m' := by
  induction m generalizing lo m' with
  | nil =>
    cases m' with
    | nil => rfl
    | cons c rest =>
      obtain ⟨b, v⟩ := c
      simp only [wfFrom, Bool.and_eq_true, decide_eq_true_eq, bne_iff_ne] at h'
      have := he b h'.1.1.1 h'.1.1.2
      simp [cellAt] at this
      exact absurd this.symm h'.1.2
  | cons c rest ih =>
    obtain ⟨b, v⟩ := c
    have hc := h
    simp only [wfFrom, Bool.and_eq_true, decide_eq_true_eq, bne_iff_ne] at h
    cases m' with
    | nil =>
      have := he b h.1.1.1 h.1.1.2
      simp [cellAt] at this
      exact absurd this h.1.2
    | cons c' rest' =>
      obtain ⟨b', v'⟩ := c'
      simp only [wfFrom, Bool.and_eq_true, decide_eq_true_eq, bne_iff_ne] at h'
      have hbb : b = b' := by
        rcases Nat.lt_trichotomy b b' with hlt | heq | hgt
        · have := he b h.1.1.1 h.1.1.2
          rw [cellAt, if_pos rfl, cellAt, if_neg (by omega), cellAt_eq_zero_of_lt h'.2 (by omega)] at this
          exact absurd this h.1.2
        · exact heq
        · have := he b' h'.1.1.1 h'.1.1.2
          rw [cellAt, if_neg (by omega), cellAt_eq_zero_of_lt h.2 (by omega), cellAt, if_pos rfl] at this
          exact absurd this.symm h'.1.2
      subst hbb
      have hv : v = v' := by simpa [cellAt] using he b h.1.1.1 h.1.1.2
      subst hv
      congr 1
      refine ih h.2 h'.2 fun j hj hj64 => ?_
      have := he j (by omega) hj64
      rwa [cellAt, if_neg (by omega), cellAt, if_neg (by omega)] at this

end Sys2Proof.Machine
end

