-- ==== Sys2Proof/Laws/PerInstr.lean ====
section
/-! SUPPORT. Statements about every instruction as syntax, one lemma per constructor. -/

namespace Sys2Proof.Laws.TableMatch

/-- The code word of the instruction matches its row of the opcode table: width, match and mask
(spec/opcode_table.json). -/
def Statement (i : Instr) : Prop := (encode i).matchesRow i.row = true

theorem reset (data : Byte) : Statement (.reset data) := by
  unfold Statement; revert data; decide
theorem update (data : Byte) : Statement (.update data) := by
  unfold Statement; revert data; decide
theorem finalize (data : Byte) : Statement (.finalize data) := by
  unfold Statement; revert data; decide
theorem rsvd (data : Byte) : Statement (.rsvd data) := by
  unfold Statement; revert data; decide
theorem step0 : Statement .step0 := by unfold Statement; decide
theorem step1 : Statement .step1 := by unfold Statement; decide
theorem step2 : Statement .step2 := by unfold Statement; decide
theorem step3 : Statement .step3 := by unfold Statement; decide
theorem step4 : Statement .step4 := by unfold Statement; decide
theorem step5 : Statement .step5 := by unfold Statement; decide
theorem step6 : Statement .step6 := by unfold Statement; decide
theorem step7 : Statement .step7 := by unfold Statement; decide
theorem step8 : Statement .step8 := by unfold Statement; decide
theorem step9 : Statement .step9 := by unfold Statement; decide
theorem step10 : Statement .step10 := by unfold Statement; decide
theorem step11 : Statement .step11 := by unfold Statement; decide
theorem step12 : Statement .step12 := by unfold Statement; decide
theorem step13 : Statement .step13 := by unfold Statement; decide
theorem step14 : Statement .step14 := by unfold Statement; decide
theorem step15 : Statement .step15 := by unfold Statement; decide
theorem step16 : Statement .step16 := by unfold Statement; decide
theorem step17 : Statement .step17 := by unfold Statement; decide
theorem step18 : Statement .step18 := by unfold Statement; decide
theorem step19 : Statement .step19 := by unfold Statement; decide
theorem step20 : Statement .step20 := by unfold Statement; decide
theorem step21 : Statement .step21 := by unfold Statement; decide
theorem step22 : Statement .step22 := by unfold Statement; decide
theorem step23 : Statement .step23 := by unfold Statement; decide
theorem step24 : Statement .step24 := by unfold Statement; decide
theorem step25 : Statement .step25 := by unfold Statement; decide
theorem step26 : Statement .step26 := by unfold Statement; decide
theorem step27 : Statement .step27 := by unfold Statement; decide
theorem step28 : Statement .step28 := by unfold Statement; decide
theorem step29 : Statement .step29 := by unfold Statement; decide
theorem step30 : Statement .step30 := by unfold Statement; decide
theorem step31 : Statement .step31 := by unfold Statement; decide
theorem step32 : Statement .step32 := by unfold Statement; decide
theorem step33 : Statement .step33 := by unfold Statement; decide
theorem step34 : Statement .step34 := by unfold Statement; decide
theorem step35 : Statement .step35 := by unfold Statement; decide
theorem step36 : Statement .step36 := by unfold Statement; decide
theorem step37 : Statement .step37 := by unfold Statement; decide
theorem step38 : Statement .step38 := by unfold Statement; decide
theorem step39 : Statement .step39 := by unfold Statement; decide
theorem step40 : Statement .step40 := by unfold Statement; decide
theorem step41 : Statement .step41 := by unfold Statement; decide
theorem step42 : Statement .step42 := by unfold Statement; decide
theorem step43 : Statement .step43 := by unfold Statement; decide
theorem step44 : Statement .step44 := by unfold Statement; decide
theorem step45 : Statement .step45 := by unfold Statement; decide
theorem step46 : Statement .step46 := by unfold Statement; decide
theorem step47 : Statement .step47 := by unfold Statement; decide
theorem step48 : Statement .step48 := by unfold Statement; decide
theorem step49 : Statement .step49 := by unfold Statement; decide
theorem step50 : Statement .step50 := by unfold Statement; decide
theorem step51 : Statement .step51 := by unfold Statement; decide
theorem step52 : Statement .step52 := by unfold Statement; decide
theorem step53 : Statement .step53 := by unfold Statement; decide
theorem step54 : Statement .step54 := by unfold Statement; decide
theorem step55 : Statement .step55 := by unfold Statement; decide
theorem step56 : Statement .step56 := by unfold Statement; decide
theorem step57 : Statement .step57 := by unfold Statement; decide
theorem step58 : Statement .step58 := by unfold Statement; decide
theorem step59 : Statement .step59 := by unfold Statement; decide
theorem step60 : Statement .step60 := by unfold Statement; decide
theorem step61 : Statement .step61 := by unfold Statement; decide
theorem step62 : Statement .step62 := by unfold Statement; decide
theorem step63 : Statement .step63 := by unfold Statement; decide
theorem feedfwd : Statement .feedfwd := by unfold Statement; decide

end Sys2Proof.Laws.TableMatch
end

