-- ==== Sys2Proof/Laws/Step.lean ====
section
/-! SUPPORT. What one step can do: one lemma per event, the transition a value of STEP selects, and the inversion
of `step`. -/

namespace Sys2Proof.Machine

/-! ### The decoder of STEP -/

theorem encode_of_decodeSeq : ∀ v : BitVec 7, ∀ i, decodeSeq v = .ok i → encode i = .seq v := by
  have key : ∀ v : BitVec 7, (match decodeSeq v with
      | .ok i => decide (encode i = .seq v)
      | .error _ => true) = true := by decide
  intro v i h
  have := key v
  rw [h] at this
  exact of_decide_eq_true this

theorem decodeSeq_ok : ∀ v : BitVec 7, v.toNat ≤ 64 → ∃ i, decodeSeq v = .ok i := by
  have key : ∀ v : BitVec 7, v.toNat ≤ 64 → (match decodeSeq v with
      | .ok _ => true
      | .error _ => false) = true := by decide
  intro v hv
  have := key v hv
  cases h : decodeSeq v with
  | ok i => exact ⟨i, rfl⟩
  | error r => rw [h] at this; cases this

theorem decodeSeq_error : ∀ v : BitVec 7, 64 < v.toNat → decodeSeq v = .error (.stepOutOfRange v) := by
  intro v hv
  have : seqTable[v.toNat]? = none := List.getElem?_eq_none (by
    have : seqTable.length = 65 := by decide
    omega)
  rw [decodeSeq, this]

/-- What a value of STEP selects: one of the 64 steps, which writes one accumulator and advances STEP, or the
feed-forward. -/
theorem exec_of_decodeSeq {v : BitVec 7} {i : Instr} (h : decodeSeq v = .ok i) :
    (v.toNat < 64 ∧ ∃ x0 f k const amount, ∀ s : State, exec i s = .next (s.seqStep x0 f k const amount (v + 1)))
      ∨ (v = 64 ∧ i = .feedfwd) := by
  have hv := encode_of_decodeSeq v i h
  cases i with
  | reset d => exact absurd hv (by simp [encode, cmdWord])
  | update d => exact absurd hv (by simp [encode, cmdWord])
  | finalize d => exact absurd hv (by simp [encode, cmdWord])
  | rsvd d => exact absurd hv (by simp [encode, cmdWord])
  | step0 => cases hv; exact .inl ⟨by decide, _, _, _, _, _, fun _ => rfl⟩
  | step1 => cases hv; exact .inl ⟨by decide, _, _, _, _, _, fun _ => rfl⟩
  | step2 => cases hv; exact .inl ⟨by decide, _, _, _, _, _, fun _ => rfl⟩
  | step3 => cases hv; exact .inl ⟨by decide, _, _, _, _, _, fun _ => rfl⟩
  | step4 => cases hv; exact .inl ⟨by decide, _, _, _, _, _, fun _ => rfl⟩
  | step5 => cases hv; exact .inl ⟨by decide, _, _, _, _, _, fun _ => rfl⟩
  | step6 => cases hv; exact .inl ⟨by decide, _, _, _, _, _, fun _ => rfl⟩
  | step7 => cases hv; exact .inl ⟨by decide, _, _, _, _, _, fun _ => rfl⟩
  | step8 => cases hv; exact .inl ⟨by decide, _, _, _, _, _, fun _ => rfl⟩
  | step9 => cases hv; exact .inl ⟨by decide, _, _, _, _, _, fun _ => rfl⟩
  | step10 => cases hv; exact .inl ⟨by decide, _, _, _, _, _, fun _ => rfl⟩
  | step11 => cases hv; exact .inl ⟨by decide, _, _, _, _, _, fun _ => rfl⟩
  | step12 => cases hv; exact .inl ⟨by decide, _, _, _, _, _, fun _ => rfl⟩
  | step13 => cases hv; exact .inl ⟨by decide, _, _, _, _, _, fun _ => rfl⟩
  | step14 => cases hv; exact .inl ⟨by decide, _, _, _, _, _, fun _ => rfl⟩
  | step15 => cases hv; exact .inl ⟨by decide, _, _, _, _, _, fun _ => rfl⟩
  | step16 => cases hv; exact .inl ⟨by decide, _, _, _, _, _, fun _ => rfl⟩
  | step17 => cases hv; exact .inl ⟨by decide, _, _, _, _, _, fun _ => rfl⟩
  | step18 => cases hv; exact .inl ⟨by decide, _, _, _, _, _, fun _ => rfl⟩
  | step19 => cases hv; exact .inl ⟨by decide, _, _, _, _, _, fun _ => rfl⟩
  | step20 => cases hv; exact .inl ⟨by decide, _, _, _, _, _, fun _ => rfl⟩
  | step21 => cases hv; exact .inl ⟨by decide, _, _, _, _, _, fun _ => rfl⟩
  | step22 => cases hv; exact .inl ⟨by decide, _, _, _, _, _, fun _ => rfl⟩
  | step23 => cases hv; exact .inl ⟨by decide, _, _, _, _, _, fun _ => rfl⟩
  | step24 => cases hv; exact .inl ⟨by decide, _, _, _, _, _, fun _ => rfl⟩
  | step25 => cases hv; exact .inl ⟨by decide, _, _, _, _, _, fun _ => rfl⟩
  | step26 => cases hv; exact .inl ⟨by decide, _, _, _, _, _, fun _ => rfl⟩
  | step27 => cases hv; exact .inl ⟨by decide, _, _, _, _, _, fun _ => rfl⟩
  | step28 => cases hv; exact .inl ⟨by decide, _, _, _, _, _, fun _ => rfl⟩
  | step29 => cases hv; exact .inl ⟨by decide, _, _, _, _, _, fun _ => rfl⟩
  | step30 => cases hv; exact .inl ⟨by decide, _, _, _, _, _, fun _ => rfl⟩
  | step31 => cases hv; exact .inl ⟨by decide, _, _, _, _, _, fun _ => rfl⟩
  | step32 => cases hv; exact .inl ⟨by decide, _, _, _, _, _, fun _ => rfl⟩
  | step33 => cases hv; exact .inl ⟨by decide, _, _, _, _, _, fun _ => rfl⟩
  | step34 => cases hv; exact .inl ⟨by decide, _, _, _, _, _, fun _ => rfl⟩
  | step35 => cases hv; exact .inl ⟨by decide, _, _, _, _, _, fun _ => rfl⟩
  | step36 => cases hv; exact .inl ⟨by decide, _, _, _, _, _, fun _ => rfl⟩
  | step37 => cases hv; exact .inl ⟨by decide, _, _, _, _, _, fun _ => rfl⟩
  | step38 => cases hv; exact .inl ⟨by decide, _, _, _, _, _, fun _ => rfl⟩
  | step39 => cases hv; exact .inl ⟨by decide, _, _, _, _, _, fun _ => rfl⟩
  | step40 => cases hv; exact .inl ⟨by decide, _, _, _, _, _, fun _ => rfl⟩
  | step41 => cases hv; exact .inl ⟨by decide, _, _, _, _, _, fun _ => rfl⟩
  | step42 => cases hv; exact .inl ⟨by decide, _, _, _, _, _, fun _ => rfl⟩
  | step43 => cases hv; exact .inl ⟨by decide, _, _, _, _, _, fun _ => rfl⟩
  | step44 => cases hv; exact .inl ⟨by decide, _, _, _, _, _, fun _ => rfl⟩
  | step45 => cases hv; exact .inl ⟨by decide, _, _, _, _, _, fun _ => rfl⟩
  | step46 => cases hv; exact .inl ⟨by decide, _, _, _, _, _, fun _ => rfl⟩
  | step47 => cases hv; exact .inl ⟨by decide, _, _, _, _, _, fun _ => rfl⟩
  | step48 => cases hv; exact .inl ⟨by decide, _, _, _, _, _, fun _ => rfl⟩
  | step49 => cases hv; exact .inl ⟨by decide, _, _, _, _, _, fun _ => rfl⟩
  | step50 => cases hv; exact .inl ⟨by decide, _, _, _, _, _, fun _ => rfl⟩
  | step51 => cases hv; exact .inl ⟨by decide, _, _, _, _, _, fun _ => rfl⟩
  | step52 => cases hv; exact .inl ⟨by decide, _, _, _, _, _, fun _ => rfl⟩
  | step53 => cases hv; exact .inl ⟨by decide, _, _, _, _, _, fun _ => rfl⟩
  | step54 => cases hv; exact .inl ⟨by decide, _, _, _, _, _, fun _ => rfl⟩
  | step55 => cases hv; exact .inl ⟨by decide, _, _, _, _, _, fun _ => rfl⟩
  | step56 => cases hv; exact .inl ⟨by decide, _, _, _, _, _, fun _ => rfl⟩
  | step57 => cases hv; exact .inl ⟨by decide, _, _, _, _, _, fun _ => rfl⟩
  | step58 => cases hv; exact .inl ⟨by decide, _, _, _, _, _, fun _ => rfl⟩
  | step59 => cases hv; exact .inl ⟨by decide, _, _, _, _, _, fun _ => rfl⟩
  | step60 => cases hv; exact .inl ⟨by decide, _, _, _, _, _, fun _ => rfl⟩
  | step61 => cases hv; exact .inl ⟨by decide, _, _, _, _, _, fun _ => rfl⟩
  | step62 => cases hv; exact .inl ⟨by decide, _, _, _, _, _, fun _ => rfl⟩
  | step63 => cases hv; exact .inl ⟨by decide, _, _, _, _, _, fun _ => rfl⟩
  | feedfwd => cases hv; exact .inr ⟨rfl, rfl⟩

/-! ### Events -/

theorem step_of_rst {s : State} (h : s.sample.rst = true) : step s = .next s.sampled.toReset := by
  simp [step, State.event, h]

theorem step_of_hold {s : State} (hr : s.sample.rst = false) (hi : s.activity = .idle)
    (hv : s.sample.cmdValid = false) : step s = .next s.sampled := by
  simp [step, State.event, hr, hi, hv]

theorem step_of_command {s : State} (hr : s.sample.rst = false) (hi : s.activity = .idle)
    (hv : s.sample.cmdValid = true) : step s = exec (decodeCmd s.sample.cmd) s.sampled := by
  simp [step, State.event, hr, hi, hv, decode]

theorem step_of_pad2 {s : State} (hr : s.sample.rst = false) (hi : s.activity = .pad2) :
    step s = .next s.sampled.runPad2 := by
  simp [step, State.event, hr, hi]

theorem event_of_compressing {s : State} (hr : s.sample.rst = false) (hc : s.compressing = true) :
    s.event = .run (.seq s.stepReg) := by
  unfold State.compressing at hc
  unfold State.event
  cases ha : s.activity <;> simp_all

theorem step_of_compressing {s : State} {i : Instr} (hr : s.sample.rst = false) (hc : s.compressing = true)
    (hd : decodeSeq s.stepReg = .ok i) : step s = exec i s.sampled := by
  simp [step, event_of_compressing hr hc, decode, hd]

theorem compressing_iff {s : State} : s.compressing = true ↔ s.activity ≠ .idle ∧ s.activity ≠ .pad2 := by
  unfold State.compressing
  cases s.activity <;> simp

/-- Everything a step that answers a next state can have done. -/
theorem step_cases {s t : State} (h : step s = .next t) :
    (s.sample.rst = true ∧ t = s.sampled.toReset) ∨
    (s.sample.rst = false ∧ s.activity = .idle ∧ s.sample.cmdValid = false ∧ t = s.sampled) ∨
    (s.sample.rst = false ∧ s.activity = .idle ∧ s.sample.cmdValid = true ∧
      exec (decodeCmd s.sample.cmd) s.sampled = .next t) ∨
    (s.sample.rst = false ∧ s.activity = .pad2 ∧ t = s.sampled.runPad2) ∨
    (s.sample.rst = false ∧ s.compressing = true ∧ s.stepReg.toNat < 64 ∧
      ∃ x0 f k const amount, t = s.sampled.seqStep x0 f k const amount (s.stepReg + 1)) ∨
    (s.sample.rst = false ∧ s.compressing = true ∧ s.stepReg = 64 ∧
      t = (s.sampled.mapArch (·.feedForward s.acc)).endCompress) := by
  cases hr : s.sample.rst with
  | true => rw [step_of_rst hr] at h; exact .inl ⟨rfl, by cases h; rfl⟩
  | false =>
    refine .inr ?_
    by_cases hc : s.compressing = true
    · refine .inr (.inr (.inr ?_))
      cases hd : decodeSeq s.stepReg with
      | error r => simp [step, event_of_compressing hr hc, decode, hd] at h
      | ok i =>
        rw [step_of_compressing hr hc hd] at h
        rcases exec_of_decodeSeq hd with ⟨hlt, x0, f, k, const, amount, he⟩ | ⟨h64, rfl⟩
        · rw [he] at h
          exact .inl ⟨rfl, hc, hlt, x0, f, k, const, amount, by cases h; rfl⟩
        · exact .inr ⟨rfl, hc, h64, by cases h; rfl⟩
    · have hc' : s.activity = .idle ∨ s.activity = .pad2 := by
        rw [compressing_iff] at hc
        by_cases hi : s.activity = .idle
        · exact .inl hi
        · exact .inr (by_contra fun hp => hc ⟨hi, hp⟩)
      rcases hc' with hi | hp
      · cases hv : s.sample.cmdValid with
        | false => rw [step_of_hold hr hi hv] at h; exact .inl ⟨rfl, hi, rfl, by cases h; rfl⟩
        | true => rw [step_of_command hr hi hv] at h; exact .inr (.inl ⟨rfl, hi, rfl, h⟩)
      · rw [step_of_pad2 hr hp] at h; exact .inr (.inr (.inl ⟨rfl, hp, by cases h; rfl⟩))

/-! ### The end of a COMPRESS -/

theorem endCompress_arch (s : State) :
    s.endCompress.arch = if s.activity = .compT then { s.arch with phase := .done } else s.arch := by
  unfold State.endCompress
  cases ha : s.activity <;> simp

theorem endCompress_inputs (s : State) : s.endCompress.inputs = s.inputs := by
  unfold State.endCompress
  cases ha : s.activity <;> simp

theorem endCompress_activity (s : State) :
    s.endCompress.activity = if s.activity = .comp1 ∨ s.activity = .pad2 then .pad2 else .idle := by
  unfold State.endCompress
  cases ha : s.activity <;> simp [ha]

/-- STEP outside COMPRESS is one of the values the register can have (10_state.md R44). -/
theorem dropSequencer_stepReg_le (s : State) : s.dropSequencer.stepReg.toNat ≤ 64 := by
  have := (Config.freeStep s.fresh).isLt
  show (BitVec.ofNat 7 (Config.freeStep s.fresh).val).toNat ≤ 64
  rw [BitVec.toNat_ofNat]
  omega

theorem endCompress_stepReg_le (s : State) : s.endCompress.stepReg.toNat ≤ 64 := by
  unfold State.endCompress
  cases ha : s.activity <;> exact dropSequencer_stepReg_le s

/-! ### Runs -/

theorem runEdges_succ_of_next {s t : State} (h : step s = .next t) (k : Nat) :
    runEdges (k + 1) s = runEdges k t := by
  rw [runEdges, h]

/-- A run of `j + k` edges is a run of `k` edges after a run of `j`. -/
theorem runEdges_add {s t : State} {j : Nat} (h : runEdges j s = .next t) (k : Nat) :
    runEdges (j + k) s = runEdges k t := by
  induction j generalizing s with
  | zero => cases h; simp
  | succ j ih =>
    rw [Nat.succ_add]
    rw [runEdges] at h ⊢
    cases hs : step s with
    | next u => rw [hs] at h; exact ih h
    | fault r => rw [hs] at h; cases h
    | refused r => rw [hs] at h; cases h

end Sys2Proof.Machine
end

