-- ==== Sys2Proof/Tests/Slice0.lean ====
section
/-! SUPPORT. Tests of the model and witnesses for the statements. Every expected value comes from spec/: the encoding
tables of 30_encoding.md, the running example of 43_steps.md, the vectors of 95_test_vectors.md, named at each test. -/

namespace Sys2Proof.Tests

open Sys2Proof
open Sys2Proof.Machine

/-! ### Well-formedness: what each check refuses -/

theorem test_canonical_refuses_reset_data : (Instr.reset 0xff).wellFormed = false := by decide
theorem test_canonical_refuses_finalize_data : (Instr.finalize 0x01).wellFormed = false := by decide
theorem test_canonical_refuses_rsvd_data : (Instr.rsvd 0xa5).wellFormed = false := by decide
theorem test_canonical_takes_every_update :
    (Instr.update 0x00).wellFormed = true ∧ (Instr.update 0xff).wellFormed = true := by decide

/-- R316: an UPDATE after a FINALIZE, a second FINALIZE and a reserved word are each refused. -/
theorem test_sequence_refused : correctlySequenced [0x200, 0x161] = false ∧
    correctlySequenced [0x200, 0x200] = false ∧ correctlySequenced [0x300] = false := by decide

/-- R316: after a RESET a new stretch begins. -/
theorem test_sequence_taken : correctlySequenced [0x000, 0x161, 0x162, 0x200, 0x0ff, 0x200] = true := by decide

/-! ### Decoding: words written out bit by bit from 30_encoding.md R94, R95, R102 -/

theorem test_decode_reset :
    decode (.cmd 0b0000000000) = .ok (.reset 0) ∧ decode (.cmd 0b0011111111) = .ok (.reset 0xff) := by decide
theorem test_decode_update :
    decode (.cmd 0b0101100001) = .ok (.update 0x61) ∧ decode (.cmd 0b0110000000) = .ok (.update 0x80) := by decide
theorem test_decode_finalize :
    decode (.cmd 0b1000000000) = .ok (.finalize 0) ∧ decode (.cmd 0b1010100101) = .ok (.finalize 0xa5) := by decide
theorem test_decode_rsvd :
    decode (.cmd 0b1100000000) = .ok (.rsvd 0) ∧ decode (.cmd 0b1110100101) = .ok (.rsvd 0xa5) := by decide

theorem test_decode_round1 :
    decode (.seq 0b0000000) = .ok .step0 ∧ decode (.seq 0b0000001) = .ok .step1 ∧
    decode (.seq 0b0000010) = .ok .step2 ∧ decode (.seq 0b0000011) = .ok .step3 ∧
    decode (.seq 0b0000100) = .ok .step4 ∧ decode (.seq 0b0000101) = .ok .step5 ∧
    decode (.seq 0b0000110) = .ok .step6 ∧ decode (.seq 0b0000111) = .ok .step7 ∧
    decode (.seq 0b0001000) = .ok .step8 ∧ decode (.seq 0b0001001) = .ok .step9 ∧
    decode (.seq 0b0001010) = .ok .step10 ∧ decode (.seq 0b0001011) = .ok .step11 ∧
    decode (.seq 0b0001100) = .ok .step12 ∧ decode (.seq 0b0001101) = .ok .step13 ∧
    decode (.seq 0b0001110) = .ok .step14 ∧ decode (.seq 0b0001111) = .ok .step15 := by decide

theorem test_decode_round2 :
    decode (.seq 0b0010000) = .ok .step16 ∧ decode (.seq 0b0010001) = .ok .step17 ∧
    decode (.seq 0b0010010) = .ok .step18 ∧ decode (.seq 0b0010011) = .ok .step19 ∧
    decode (.seq 0b0010100) = .ok .step20 ∧ decode (.seq 0b0010101) = .ok .step21 ∧
    decode (.seq 0b0010110) = .ok .step22 ∧ decode (.seq 0b0010111) = .ok .step23 ∧
    decode (.seq 0b0011000) = .ok .step24 ∧ decode (.seq 0b0011001) = .ok .step25 ∧
    decode (.seq 0b0011010) = .ok .step26 ∧ decode (.seq 0b0011011) = .ok .step27 ∧
    decode (.seq 0b0011100) = .ok .step28 ∧ decode (.seq 0b0011101) = .ok .step29 ∧
    decode (.seq 0b0011110) = .ok .step30 ∧ decode (.seq 0b0011111) = .ok .step31 := by decide

theorem test_decode_round3 :
    decode (.seq 0b0100000) = .ok .step32 ∧ decode (.seq 0b0100001) = .ok .step33 ∧
    decode (.seq 0b0100010) = .ok .step34 ∧ decode (.seq 0b0100011) = .ok .step35 ∧
    decode (.seq 0b0100100) = .ok .step36 ∧ decode (.seq 0b0100101) = .ok .step37 ∧
    decode (.seq 0b0100110) = .ok .step38 ∧ decode (.seq 0b0100111) = .ok .step39 ∧
    decode (.seq 0b0101000) = .ok .step40 ∧ decode (.seq 0b0101001) = .ok .step41 ∧
    decode (.seq 0b0101010) = .ok .step42 ∧ decode (.seq 0b0101011) = .ok .step43 ∧
    decode (.seq 0b0101100) = .ok .step44 ∧ decode (.seq 0b0101101) = .ok .step45 ∧
    decode (.seq 0b0101110) = .ok .step46 ∧ decode (.seq 0b0101111) = .ok .step47 := by decide

theorem test_decode_round4 :
    decode (.seq 0b0110000) = .ok .step48 ∧ decode (.seq 0b0110001) = .ok .step49 ∧
    decode (.seq 0b0110010) = .ok .step50 ∧ decode (.seq 0b0110011) = .ok .step51 ∧
    decode (.seq 0b0110100) = .ok .step52 ∧ decode (.seq 0b0110101) = .ok .step53 ∧
    decode (.seq 0b0110110) = .ok .step54 ∧ decode (.seq 0b0110111) = .ok .step55 ∧
    decode (.seq 0b0111000) = .ok .step56 ∧ decode (.seq 0b0111001) = .ok .step57 ∧
    decode (.seq 0b0111010) = .ok .step58 ∧ decode (.seq 0b0111011) = .ok .step59 ∧
    decode (.seq 0b0111100) = .ok .step60 ∧ decode (.seq 0b0111101) = .ok .step61 ∧
    decode (.seq 0b0111110) = .ok .step62 ∧ decode (.seq 0b0111111) = .ok .step63 := by decide

theorem test_decode_feedfwd : decode (.seq 0b1000000) = .ok .feedfwd := by decide

/-- R44: 65 and 127 never occur. -/
theorem test_decode_rejects_by_name :
    decode (.seq 0b1000001) = .error (.stepOutOfRange 65) ∧ decode (.seq 0b1111111) = .error (.stepOutOfRange 127) := by
  decide

/-- The two formats of the opcode table: 10-bit words are 2 bytes, 7-bit words 1 byte (log entry 10). -/
theorem test_table_words : decodeTableWord 16 0x161 = some (.update 0x61) ∧
    decodeTableWord 16 0x3ff = some (.rsvd 0xff) ∧ decodeTableWord 8 0x40 = some .feedfwd ∧
    decodeTableWord 8 0x00 = some .step0 ∧ decodeTableWord 8 0x41 = none := by decide

/-! ### The 64 steps: the running example of 43_steps.md R200 to R263 -/

/-- The padded empty message in BUF, in the COMPRESS of a FINALIZE before step `n`, with these accumulators. -/
def trace (n : BitVec 7) (a b c d : Word) : State :=
  { State.reset with
    arch := { Arch.reset with buf := [(0, 0x80)] }
    acc := ⟨a, b, c, d⟩, stepReg := n, activity := .compT }

/-- The accumulators and STEP after the next edge. -/
def accAfter (s : State) : Option (Accum × BitVec 7) :=
  match step s with
  | .next t => some (t.acc, t.stepReg)
  | .fault _ => none
  | .refused _ => none

/-- The state after the next edge. -/
def after (s : State) : Option State :=
  match step s with
  | .next t => some t
  | .fault _ => none
  | .refused _ => none

theorem test_step0 : accAfter (trace 0 0x67452301 0xefcdab89 0x98badcfe 0x10325476) =
    some (⟨0xa5202774, 0xefcdab89, 0x98badcfe, 0x10325476⟩, 1) := by decide
theorem test_step1 : accAfter (trace 1 0xa5202774 0xefcdab89 0x98badcfe 0x10325476) =
    some (⟨0xa5202774, 0xefcdab89, 0x98badcfe, 0xf59592dd⟩, 2) := by decide
theorem test_step2 : accAfter (trace 2 0xa5202774 0xefcdab89 0x98badcfe 0xf59592dd) =
    some (⟨0xa5202774, 0xefcdab89, 0xe7f06b23, 0xf59592dd⟩, 3) := by decide
theorem test_step3 : accAfter (trace 3 0xa5202774 0xefcdab89 0xe7f06b23 0xf59592dd) =
    some (⟨0xa5202774, 0x1b163203, 0xe7f06b23, 0xf59592dd⟩, 4) := by decide
theorem test_step4 : accAfter (trace 4 0xa5202774 0x1b163203 0xe7f06b23 0xf59592dd) =
    some (⟨0x32033344, 0x1b163203, 0xe7f06b23, 0xf59592dd⟩, 5) := by decide
theorem test_step5 : accAfter (trace 5 0x32033344 0x1b163203 0xe7f06b23 0xf59592dd) =
    some (⟨0x32033344, 0x1b163203, 0xe7f06b23, 0x2f35d494⟩, 6) := by decide
theorem test_step6 : accAfter (trace 6 0x32033344 0x1b163203 0xe7f06b23 0x2f35d494) =
    some (⟨0x32033344, 0x1b163203, 0xf5b158db, 0x2f35d494⟩, 7) := by decide
theorem test_step7 : accAfter (trace 7 0x32033344 0x1b163203 0xf5b158db 0x2f35d494) =
    some (⟨0x32033344, 0x9bc13ce9, 0xf5b158db, 0x2f35d494⟩, 8) := by decide
theorem test_step8 : accAfter (trace 8 0x32033344 0x9bc13ce9 0xf5b158db 0x2f35d494) =
    some (⟨0x3893b991, 0x9bc13ce9, 0xf5b158db, 0x2f35d494⟩, 9) := by decide
theorem test_step9 : accAfter (trace 9 0x3893b991 0x9bc13ce9 0xf5b158db 0x2f35d494) =
    some (⟨0x3893b991, 0x9bc13ce9, 0xf5b158db, 0xfce4a312⟩, 10) := by decide
theorem test_step10 : accAfter (trace 10 0x3893b991 0x9bc13ce9 0xf5b158db 0xfce4a312) =
    some (⟨0x3893b991, 0x9bc13ce9, 0xe1ef0576, 0xfce4a312⟩, 11) := by decide
theorem test_step11 : accAfter (trace 11 0x3893b991 0x9bc13ce9 0xe1ef0576 0xfce4a312) =
    some (⟨0x3893b991, 0x70768a29, 0xe1ef0576, 0xfce4a312⟩, 12) := by decide
theorem test_step12 : accAfter (trace 12 0x3893b991 0x70768a29 0xe1ef0576 0xfce4a312) =
    some (⟨0xf56c7cf1, 0x70768a29, 0xe1ef0576, 0xfce4a312⟩, 13) := by decide
theorem test_step13 : accAfter (trace 13 0xf56c7cf1 0x70768a29 0xe1ef0576 0xfce4a312) =
    some (⟨0xf56c7cf1, 0x70768a29, 0xe1ef0576, 0x374943a7⟩, 14) := by decide
theorem test_step14 : accAfter (trace 14 0xf56c7cf1 0x70768a29 0xe1ef0576 0x374943a7) =
    some (⟨0xf56c7cf1, 0x70768a29, 0x5aa53f75, 0x374943a7⟩, 15) := by decide
theorem test_step15 : accAfter (trace 15 0xf56c7cf1 0x70768a29 0x5aa53f75 0x374943a7) =
    some (⟨0xf56c7cf1, 0xd6819c6a, 0x5aa53f75, 0x374943a7⟩, 16) := by decide
theorem test_step16 : accAfter (trace 16 0xf56c7cf1 0xd6819c6a 0x5aa53f75 0x374943a7) =
    some (⟨0x1c7d7513, 0xd6819c6a, 0x5aa53f75, 0x374943a7⟩, 17) := by decide
theorem test_step17 : accAfter (trace 17 0x1c7d7513 0xd6819c6a 0x5aa53f75 0x374943a7) =
    some (⟨0x1c7d7513, 0xd6819c6a, 0x5aa53f75, 0x7bd57a3a⟩, 18) := by decide
theorem test_step18 : accAfter (trace 18 0x1c7d7513 0xd6819c6a 0x5aa53f75 0x7bd57a3a) =
    some (⟨0x1c7d7513, 0xd6819c6a, 0xc095f13a, 0x7bd57a3a⟩, 19) := by decide
theorem test_step19 : accAfter (trace 19 0x1c7d7513 0xd6819c6a 0xc095f13a 0x7bd57a3a) =
    some (⟨0x1c7d7513, 0xbd782e17, 0xc095f13a, 0x7bd57a3a⟩, 20) := by decide
theorem test_step20 : accAfter (trace 20 0x1c7d7513 0xbd782e17 0xc095f13a 0x7bd57a3a) =
    some (⟨0x3d1e3e6c, 0xbd782e17, 0xc095f13a, 0x7bd57a3a⟩, 21) := by decide
theorem test_step21 : accAfter (trace 21 0x3d1e3e6c 0xbd782e17 0xc095f13a 0x7bd57a3a) =
    some (⟨0x3d1e3e6c, 0xbd782e17, 0xc095f13a, 0x68b7b3e3⟩, 22) := by decide
theorem test_step22 : accAfter (trace 22 0x3d1e3e6c 0xbd782e17 0xc095f13a 0x68b7b3e3) =
    some (⟨0x3d1e3e6c, 0xbd782e17, 0xeb41643e, 0x68b7b3e3⟩, 23) := by decide
theorem test_step23 : accAfter (trace 23 0x3d1e3e6c 0xbd782e17 0xeb41643e 0x68b7b3e3) =
    some (⟨0x3d1e3e6c, 0xe422531a, 0xeb41643e, 0x68b7b3e3⟩, 24) := by decide
theorem test_step24 : accAfter (trace 24 0x3d1e3e6c 0xe422531a 0xeb41643e 0x68b7b3e3) =
    some (⟨0x306ec122, 0xe422531a, 0xeb41643e, 0x68b7b3e3⟩, 25) := by decide
theorem test_step25 : accAfter (trace 25 0x306ec122 0xe422531a 0xeb41643e 0x68b7b3e3) =
    some (⟨0x306ec122, 0xe422531a, 0xeb41643e, 0xd28c77c2⟩, 26) := by decide
theorem test_step26 : accAfter (trace 26 0x306ec122 0xe422531a 0xeb41643e 0xd28c77c2) =
    some (⟨0x306ec122, 0xe422531a, 0xa3c663da, 0xd28c77c2⟩, 27) := by decide
theorem test_step27 : accAfter (trace 27 0x306ec122 0xe422531a 0xa3c663da 0xd28c77c2) =
    some (⟨0x306ec122, 0xa0572807, 0xa3c663da, 0xd28c77c2⟩, 28) := by decide
theorem test_step28 : accAfter (trace 28 0x306ec122 0xa0572807 0xa3c663da 0xd28c77c2) =
    some (⟨0x13707036, 0xa0572807, 0xa3c663da, 0xd28c77c2⟩, 29) := by decide
theorem test_step29 : accAfter (trace 29 0x13707036 0xa0572807 0xa3c663da 0xd28c77c2) =
    some (⟨0x13707036, 0xa0572807, 0xa3c663da, 0xae7813db⟩, 30) := by decide
theorem test_step30 : accAfter (trace 30 0x13707036 0xa0572807 0xa3c663da 0xae7813db) =
    some (⟨0x13707036, 0xa0572807, 0x1c31c384, 0xae7813db⟩, 31) := by decide
theorem test_step31 : accAfter (trace 31 0x13707036 0xa0572807 0x1c31c384 0xae7813db) =
    some (⟨0x13707036, 0xa2205f1f, 0x1c31c384, 0xae7813db⟩, 32) := by decide
theorem test_step32 : accAfter (trace 32 0x13707036 0xa2205f1f 0x1c31c384 0xae7813db) =
    some (⟨0xdf63eaa1, 0xa2205f1f, 0x1c31c384, 0xae7813db⟩, 33) := by decide
theorem test_step33 : accAfter (trace 33 0xdf63eaa1 0xa2205f1f 0x1c31c384 0xae7813db) =
    some (⟨0xdf63eaa1, 0xa2205f1f, 0x1c31c384, 0xc3689f5b⟩, 34) := by decide
theorem test_step34 : accAfter (trace 34 0xdf63eaa1 0xa2205f1f 0x1c31c384 0xc3689f5b) =
    some (⟨0xdf63eaa1, 0xa2205f1f, 0x12f3e755, 0xc3689f5b⟩, 35) := by decide
theorem test_step35 : accAfter (trace 35 0xdf63eaa1 0xa2205f1f 0x12f3e755 0xc3689f5b) =
    some (⟨0xdf63eaa1, 0x004b6669, 0x12f3e755, 0xc3689f5b⟩, 36) := by decide
theorem test_step36 : accAfter (trace 36 0xdf63eaa1 0x004b6669 0x12f3e755 0xc3689f5b) =
    some (⟨0x5f7a9b2e, 0x004b6669, 0x12f3e755, 0xc3689f5b⟩, 37) := by decide
theorem test_step37 : accAfter (trace 37 0x5f7a9b2e 0x004b6669 0x12f3e755 0xc3689f5b) =
    some (⟨0x5f7a9b2e, 0x004b6669, 0x12f3e755, 0xabc34e16⟩, 38) := by decide
theorem test_step38 : accAfter (trace 38 0x5f7a9b2e 0x004b6669 0x12f3e755 0xabc34e16) =
    some (⟨0x5f7a9b2e, 0x004b6669, 0x91ca4cb7, 0xabc34e16⟩, 39) := by decide
theorem test_step39 : accAfter (trace 39 0x5f7a9b2e 0x004b6669 0x91ca4cb7 0xabc34e16) =
    some (⟨0x5f7a9b2e, 0xc5dc8c15, 0x91ca4cb7, 0xabc34e16⟩, 40) := by decide
theorem test_step40 : accAfter (trace 40 0x5f7a9b2e 0xc5dc8c15 0x91ca4cb7 0xabc34e16) =
    some (⟨0x4497169d, 0xc5dc8c15, 0x91ca4cb7, 0xabc34e16⟩, 41) := by decide
theorem test_step41 : accAfter (trace 41 0x4497169d 0xc5dc8c15 0x91ca4cb7 0xabc34e16) =
    some (⟨0x4497169d, 0xc5dc8c15, 0x91ca4cb7, 0x76fd93d4⟩, 42) := by decide
theorem test_step42 : accAfter (trace 42 0x4497169d 0xc5dc8c15 0x91ca4cb7 0x76fd93d4) =
    some (⟨0x4497169d, 0xc5dc8c15, 0xfd95f243, 0x76fd93d4⟩, 43) := by decide
theorem test_step43 : accAfter (trace 43 0x4497169d 0xc5dc8c15 0xfd95f243 0x76fd93d4) =
    some (⟨0x4497169d, 0x0fe32453, 0xfd95f243, 0x76fd93d4⟩, 44) := by decide
theorem test_step44 : accAfter (trace 44 0x4497169d 0x0fe32453 0xfd95f243 0x76fd93d4) =
    some (⟨0x3f55edfd, 0x0fe32453, 0xfd95f243, 0x76fd93d4⟩, 45) := by decide
theorem test_step45 : accAfter (trace 45 0x3f55edfd 0x0fe32453 0xfd95f243 0x76fd93d4) =
    some (⟨0x3f55edfd, 0x0fe32453, 0xfd95f243, 0x22a31f54⟩, 46) := by decide
theorem test_step46 : accAfter (trace 46 0x3f55edfd 0x0fe32453 0xfd95f243 0x22a31f54) =
    some (⟨0x3f55edfd, 0x0fe32453, 0x68d84ea2, 0x22a31f54⟩, 47) := by decide
theorem test_step47 : accAfter (trace 47 0x3f55edfd 0x0fe32453 0x68d84ea2 0x22a31f54) =
    some (⟨0x3f55edfd, 0xca7d2dbd, 0x68d84ea2, 0x22a31f54⟩, 48) := by decide
theorem test_step48 : accAfter (trace 48 0x3f55edfd 0xca7d2dbd 0x68d84ea2 0x22a31f54) =
    some (⟨0x93aa2577, 0xca7d2dbd, 0x68d84ea2, 0x22a31f54⟩, 49) := by decide
theorem test_step49 : accAfter (trace 49 0x93aa2577 0xca7d2dbd 0x68d84ea2 0x22a31f54) =
    some (⟨0x93aa2577, 0xca7d2dbd, 0x68d84ea2, 0x1688dc85⟩, 50) := by decide
theorem test_step50 : accAfter (trace 50 0x93aa2577 0xca7d2dbd 0x68d84ea2 0x1688dc85) =
    some (⟨0x93aa2577, 0xca7d2dbd, 0xcd85b8cb, 0x1688dc85⟩, 51) := by decide
theorem test_step51 : accAfter (trace 51 0x93aa2577 0xca7d2dbd 0xcd85b8cb 0x1688dc85) =
    some (⟨0x93aa2577, 0x561e0689, 0xcd85b8cb, 0x1688dc85⟩, 52) := by decide
theorem test_step52 : accAfter (trace 52 0x93aa2577 0x561e0689 0xcd85b8cb 0x1688dc85) =
    some (⟨0x5625a114, 0x561e0689, 0xcd85b8cb, 0x1688dc85⟩, 53) := by decide
theorem test_step53 : accAfter (trace 53 0x5625a114 0x561e0689 0xcd85b8cb 0x1688dc85) =
    some (⟨0x5625a114, 0x561e0689, 0xcd85b8cb, 0x3450f42b⟩, 54) := by decide
theorem test_step54 : accAfter (trace 54 0x5625a114 0x561e0689 0xcd85b8cb 0x3450f42b) =
    some (⟨0x5625a114, 0x561e0689, 0x392ad0d0, 0x3450f42b⟩, 55) := by decide
theorem test_step55 : accAfter (trace 55 0x5625a114 0x561e0689 0x392ad0d0 0x3450f42b) =
    some (⟨0x5625a114, 0x1e77fa61, 0x392ad0d0, 0x3450f42b⟩, 56) := by decide
theorem test_step56 : accAfter (trace 56 0x5625a114 0x1e77fa61 0x392ad0d0 0x3450f42b) =
    some (⟨0x474a9c8c, 0x1e77fa61, 0x392ad0d0, 0x3450f42b⟩, 57) := by decide
theorem test_step57 : accAfter (trace 57 0x474a9c8c 0x1e77fa61 0x392ad0d0 0x3450f42b) =
    some (⟨0x474a9c8c, 0x1e77fa61, 0x392ad0d0, 0xdfce00bc⟩, 58) := by decide
theorem test_step58 : accAfter (trace 58 0x474a9c8c 0x1e77fa61 0x392ad0d0 0xdfce00bc) =
    some (⟨0x474a9c8c, 0x1e77fa61, 0x36594b14, 0xdfce00bc⟩, 59) := by decide
theorem test_step59 : accAfter (trace 59 0x474a9c8c 0x1e77fa61 0x36594b14 0xdfce00bc) =
    some (⟨0x474a9c8c, 0x30130182, 0x36594b14, 0xdfce00bc⟩, 60) := by decide
theorem test_step60 : accAfter (trace 60 0x474a9c8c 0x30130182 0x36594b14 0xdfce00bc) =
    some (⟨0x7246fad3, 0x30130182, 0x36594b14, 0xdfce00bc⟩, 61) := by decide
theorem test_step61 : accAfter (trace 61 0x7246fad3 0x30130182 0x36594b14 0xdfce00bc) =
    some (⟨0x7246fad3, 0x30130182, 0x36594b14, 0x6e10a476⟩, 62) := by decide
theorem test_step62 : accAfter (trace 62 0x7246fad3 0x30130182 0x36594b14 0x6e10a476) =
    some (⟨0x7246fad3, 0x30130182, 0xff4ea3eb, 0x6e10a476⟩, 63) := by decide
theorem test_step63 : accAfter (trace 63 0x7246fad3 0x30130182 0xff4ea3eb 0x6e10a476) =
    some (⟨0x7246fad3, 0x14e45506, 0xff4ea3eb, 0x6e10a476⟩, 64) := by decide

/-- R264, the end of the running example: V31, whose serialisation is V1's digest. -/
theorem test_feedfwd :
    (after (trace 64 0x7246fad3 0x14e45506 0xff4ea3eb 0x6e10a476)).map
      (fun t => (t.arch.h, t.arch.phase, t.ready, digestToHex (serialise t.arch.h))) =
    some (⟨0xd98c1dd4, 0x04b2008f, 0x980980e9, 0x7e42f8ec⟩, .done, true,
      "d41d8cd98f00b204e9800998ecf8427e".toList.map (fun ch => BitVec.ofNat 8 ch.toNat)) := by decide

/-- V35, the vector in which all sixteen message words differ, so that it pins PERM. -/
theorem test_compress_V35 :
    compress Chain.iv (Vector.ofFn fun j => BitVec.ofNat 8 j.val) =
      ⟨0x9144d9ca, 0xd901e4c9, 0x72fc5b38, 0x625ff51e⟩ := by decide +kernel

/-! ### The commands -/

/-- An idle engine with this architectural state that is offered this word at the next edge. -/
def offered (a : Arch) (c : BitVec 10) : State :=
  { State.reset with arch := a, inputs := [PortIn.offer c] }

/-- The reset state with this counter. -/
def counted (cntLo cntHi : Word) : Arch := { Arch.reset with cntLo := cntLo, cntHi := cntHi }

/-- A message whose FINALIZE has completed. -/
def finished : Arch := { counted 3 0 with phase := .done, buf := [(0, 0x61), (1, 0x62), (2, 0x63), (3, 0x80), (56, 0x18)] }

/-- R120, V94: RESET in phase DONE with a data field that is not 0; the outputs are V96's. -/
theorem test_reset : (after (offered finished 0x0ff)).map (fun t => (t.arch == Arch.reset, t.outputs)) =
    some (true, ⟨true, some 0x1032547698badcfeefcdab8967452301, false, false, 0, some 0, some 0⟩) := by decide

/-- V40. -/
theorem test_update_first_byte : (after (offered Arch.reset 0x161)).map (fun t => (t.arch, t.ready)) =
    some ({ counted 1 0 with buf := [(0, 0x61)] }, true) := by decide

/-- V44: the carry into CNT_HI on the command that begins a COMPRESS. -/
theorem test_update_carries_and_compresses :
    (after (offered (counted 0xffffffff 0) 0x100)).map (fun t => (t.arch, t.activity, t.acc, t.stepReg)) =
    some (counted 0 1, .compU, ⟨0x67452301, 0xefcdab89, 0x98badcfe, 0x10325476⟩, 0) := by decide

/-- V2 and V51's layout: "abc" is padded to one block. -/
theorem test_finalize_one_block :
    (after (offered { counted 3 0 with buf := [(0, 0x61), (1, 0x62), (2, 0x63)] } 0x200)).map
      (fun t => (t.arch.buf, t.arch.phase, t.activity)) =
    some ([(0, 0x61), (1, 0x62), (2, 0x63), (3, 0x80), (56, 0x18)], .absorb, .compT) := by decide

/-- V59b: `used = 63`, the two-block path; the first block is 63 x 00 then 80. -/
theorem test_finalize_two_blocks :
    (after (offered (counted 0xffffffff 0xffffffff) 0x200)).map (fun t => (t.arch.buf, t.activity)) =
    some ([(63, 0x80)], .comp1) := by decide

/-- V59b: the fresh block holds f8 and seven ff, the length with its top three bits lost. -/
theorem test_pad2_length :
    (after { State.reset with
      arch := { counted 0xffffffff 0xffffffff with buf := [(63, 0x80)] }, activity := .pad2 }).map
      (fun t => (t.arch.buf, t.activity)) =
    some ([(56, 0xf8), (57, 0xff), (58, 0xff), (59, 0xff), (60, 0xff), (61, 0xff), (62, 0xff), (63, 0xff)],
      .compT) := by decide

/-- V93: a reserved word in phase ABSORB. -/
theorem test_rsvd : (after (offered (counted 5 0) 0x3a5)).map (·.arch) =
    some { counted 5 0 with err := true, cause := .reservedOpcode } := by decide

/-- V90: UPDATE after FINALIZE is cause 1, and the FINALIZE after it keeps cause 1. -/
theorem test_misuse_first_cause_kept : (after (offered finished 0x161)).map (·.arch) =
      some { finished with err := true, cause := .updateAfterFinalize } ∧
    (after (offered { finished with err := true, cause := .updateAfterFinalize } 0x200)).map (·.arch) =
      some { finished with err := true, cause := .updateAfterFinalize } := by decide

/-- V91: FINALIZE twice is cause 2. -/
theorem test_misuse_finalize_twice : (after (offered finished 0x200)).map (·.arch) =
    some { finished with err := true, cause := .finalizeTwice } := by decide

/-! ### The reset state, the primitives, the helpers -/

theorem test_reset_memory_wf : Memory.wf State.reset.arch.buf = true := by decide

/-- V11a, V11d: the top bit re-enters; the largest amount. -/
theorem test_rotl32 : rotl32 0x80000000 1 = 0x00000001 ∧ rotl32 0x12345678 23 = 0x3c091a2b := by decide

/-- V28: the truth tables of the four mixing functions. -/
theorem test_mixing : mixE 0x0f0f0f0f 0x33333333 0x55555555 = 0x53535353 ∧
    mixG 0x0f0f0f0f 0x33333333 0x55555555 = 0x27272727 ∧ mixH 0x0f0f0f0f 0x33333333 0x55555555 = 0x69696969 ∧
    mixI 0x0f0f0f0f 0x33333333 0x55555555 = 0x9c9c9c9c := by decide

/-- V13, V13c. -/
theorem test_le32 : le32Bytes 0x67452301 = [0x01, 0x23, 0x45, 0x67] ∧
    le32Word 0x00 0x01 0x02 0x03 = 0x03020100 := by decide

/-- V16c: `lo >> 29` enters L_HI. -/
theorem test_shl3 : shl3Lo 0xffffffff = 0xfffffff8 ∧ shl3Hi 0xffffffff 0 = 0x00000007 := by decide

/-- V15b: the slice level adds 64 with a carry. -/
theorem test_add64 : ((counted 0xffffffc0 0).addCnt 64 0).cnt = 0x0000000100000000 := by decide

/-- R67, R72: writing 0x00 takes the byte off the list; a word write is four bytes, least significant first. -/
theorem test_memory_canonical : memWrite1 [(3, 0x80)] 3 0x00 = [] ∧
    memWrite4 [] 14 0x00000118 = [(56, 0x18), (57, 0x01)] := by decide

/-- R303, R304. -/
theorem test_hex : digestToHex [0xa5, 0x0f] = [0x61, 0x35, 0x30, 0x66] ∧
    hexToDigest [0x61, 0x35, 0x30, 0x66] = some [0xa5, 0x0f] ∧ hexToDigest [0x41, 0x35] = none := by decide

/-- R103, R104: the lines of V90, P1 and P2, and 41_update.md section 4's UPDATE_N line. -/
theorem test_notation : assembleLine "UPDATE 0x61 ; 'a'".toList = some [0x161] ∧
    assembleLine "UPDATE 'c'".toList = some [0x163] ∧ assembleLine "RSVD".toList = some [0x300] ∧
    assembleLine "UPDATE_N \"abc\"".toList = some [0x161, 0x162, 0x163] ∧
    assembleLine "HASH \"abc\"".toList = some [0x000, 0x161, 0x162, 0x163, 0x200] ∧
    assembleLine "HASH \"\"".toList = some [0x000, 0x200] ∧
    assembleLine "UPDATE_N".toList = some [] ∧ commandLine 0x161 = "UPDATE 0x61".toList := by decide

/-- R301: the 12 bytes of `hello world` and the newline; the string up to its zero byte. -/
theorem test_notation_strings :
    assembleLine "HASH_STR \"hello world\\n\"".toList =
      some (hashWords [0x68, 0x65, 0x6c, 0x6c, 0x6f, 0x20, 0x77, 0x6f, 0x72, 0x6c, 0x64, 0x0a]) ∧
    assembleLine "HASH_STR \"abc\\0\"".toList = some (hashWords [0x61, 0x62, 0x63]) := by decide

/-! ### Witnesses: for each statement with hypotheses, states and operands that meet them together -/

theorem witness_matchesRow : (CodeWord.cmd 0x1ff).matchesRow (Instr.update 0x00).row = true ∧
    (CodeWord.cmd 0x1ff).matchesRow (Instr.update 0x01).row = true ∧
    decode (.cmd 0x1ff) = .ok (.update 0xff) := by decide

theorem witness_CommandWordSelectedByOpField : (0x0ff : BitVec 10) &&& 0x300 = 0x000 ∧
    (0x100 : BitVec 10) &&& 0x300 = 0x100 ∧ (0x2a5 : BitVec 10) &&& 0x300 = 0x200 ∧
    (0x3ff : BitVec 10) &&& 0x300 = 0x300 := by decide

theorem witness_StepRuns_command : (offered finished 0x161).activity = .idle ∧
    (offered finished 0x161).inputs = ⟨false, true, 0x161⟩ :: [] ∧
    decode (.cmd 0x161) = .ok (.update 0x61) := by decide

theorem witness_StepRuns_transition : (trace 64 0 0 0 0).compressing = true ∧
    (trace 64 0 0 0 0).sample.rst = false ∧ decode (.seq (trace 64 0 0 0 0).stepReg) = .ok .feedfwd := by decide

theorem witness_StepRuns_stop : (trace 65 0 0 0 0).compressing = true ∧ (trace 65 0 0 0 0).sample.rst = false ∧
    decode (.seq (trace 65 0 0 0 0).stepReg) = .error (.stepOutOfRange 65) := by decide

theorem witness_StepRuns_hold : State.reset.activity = .idle ∧ State.reset.sample.rst = false ∧
    State.reset.sample.cmdValid = false := by decide

theorem witness_StepRuns_table_word : decodeTableWord 16 0x161 = some (.update 0x61) ∧
    decodeTableWord 8 64 = some .feedfwd := by decide

/-- A reset pin in the middle of a command, with a word offered. -/
theorem witness_ResetPinDominates :
    { trace 30 1 2 3 4 with inputs := [⟨true, true, 0x161⟩] }.inputs = ⟨true, true, 0x161⟩ :: [] := by decide

theorem witness_ResetStateAndItsOutputs_pin :
    ∃ t, { trace 30 1 2 3 4 with inputs := [⟨true, true, 0x161⟩] }.sample.rst = true ∧
      step { trace 30 1 2 3 4 with inputs := [⟨true, true, 0x161⟩] } = .next t := ⟨_, rfl, rfl⟩

theorem witness_ResetStateAndItsOutputs_command : ∃ t, exec (.reset 0xff) (trace 30 1 2 3 4) = .next t := ⟨_, rfl⟩

/-- The least and the largest `used` below 63. -/
theorem witness_UpdateBelow63WritesOneByte : (Arch.reset.buf.wf = true ∧ Arch.reset.phase = .absorb ∧
      Arch.reset.used ≠ 63) ∧
    ((counted 62 0).buf.wf = true ∧ (counted 62 0).phase = .absorb ∧ (counted 62 0).used ≠ 63) := by decide

theorem witness_UpdateOfByte63BeginsCompress : (counted 0xffffffff 0).buf.wf = true ∧
    (counted 0xffffffff 0).phase = .absorb ∧ (counted 0xffffffff 0).used = 63 := by decide

/-- For the UPDATE and the FINALIZE in phase DONE; the engine is ready. -/
theorem witness_MisuseInPhaseDone : finished.phase = .done ∧ (offered finished 0x161).ready = true ∧
    ∃ t, exec (.finalize 0) (offered finished 0x200) = .next t := ⟨by decide, by decide, ⟨_, rfl⟩⟩

theorem witness_ReservedWordIsMisuse : (0x300 : BitVec 10) &&& 0x300 = 0x300 := by decide

theorem witness_ErrorIsSticky : ∃ t, step (offered { finished with err := true, cause := .finalizeTwice } 0x161) = .next t ∧
    (offered { finished with err := true, cause := .finalizeTwice } 0x161).resets = false := ⟨_, rfl, by decide⟩

theorem witness_ErrorBecomesSet_update : ∃ t, step (offered finished 0x161) = .next t ∧
    (offered finished 0x161).resets = false ∧ finished.err = false ∧ t.arch.err = true ∧
    (offered finished 0x161).accepts 1 = true := ⟨_, rfl, by decide, by decide, by decide, by decide⟩

theorem witness_ErrorBecomesSet_finalize : ∃ t, step (offered finished 0x200) = .next t ∧
    (offered finished 0x200).resets = false ∧ finished.err = false ∧ t.arch.err = true ∧
    (offered finished 0x200).accepts 2 = true := ⟨_, rfl, by decide, by decide, by decide, by decide⟩

theorem witness_ErrorBecomesSet_rsvd : ∃ t, step (offered Arch.reset 0x300) = .next t ∧
    (offered Arch.reset 0x300).resets = false ∧ Arch.reset.err = false ∧ t.arch.err = true ∧
    (offered Arch.reset 0x300).accepts 3 = true := ⟨_, rfl, by decide, by decide, by decide, by decide⟩

/-- `used` = 0 and 55. -/
theorem witness_FinalizeOneBlockPads : (Arch.reset.buf.wf = true ∧ Arch.reset.phase = .absorb ∧
      Arch.reset.used.toNat ≤ 55) ∧
    ((counted 55 0).buf.wf = true ∧ (counted 55 0).phase = .absorb ∧ (counted 55 0).used.toNat ≤ 55) := by decide

/-- `used` = 56 and 63. -/
theorem witness_FinalizeTwoBlocksPadsFirst : ((counted 56 0).buf.wf = true ∧ (counted 56 0).phase = .absorb ∧
      56 ≤ (counted 56 0).used.toNat) ∧
    ((counted 63 0).buf.wf = true ∧ (counted 63 0).phase = .absorb ∧ 56 ≤ (counted 63 0).used.toNat) := by decide

theorem witness_FreshBlockHoldsOnlyTheLength : { State.reset with arch := counted 56 0, activity := .pad2 }.activity = .pad2 ∧
    { State.reset with arch := counted 56 0, activity := .pad2 }.sample.rst = false := by decide

theorem witness_StepsAreTheGenericStep : decode (.seq (BitVec.ofNat 7 0)) = .ok .step0 ∧
    decode (.seq (BitVec.ofNat 7 63)) = .ok .step63 := by decide

/-- A COMPRESS just loaded, with words offered meanwhile. -/
theorem witness_SixtyFiveEdgesComputeCompress :
    let s := { trace 0 0x67452301 0xefcdab89 0x98badcfe 0x10325476 with inputs := [PortIn.offer 0x000] }
    s.compressing = true ∧ s.acc = Accum.ofChain s.arch.h ∧ s.stepReg = 0 ∧ noRst 65 s.inputs = true := by decide

/-- The three reference latencies: 1, 66 and 132. -/
theorem witness_EdgesRefineTransactions :
    ((counted 62 0).latency 1 65 0x100 = 1 ∧ noRst 1 (offered (counted 62 0) 0x100).inputs = true) ∧
    ((counted 63 0).latency 1 65 0x100 = 66 ∧ noRst 66 (offered (counted 63 0) 0x100).inputs = true) ∧
    ((counted 56 0).latency 1 65 0x200 = 132 ∧ noRst 132 (offered (counted 56 0) 0x200).inputs = true) ∧
    (offered (counted 56 0) 0x200).activity = .idle ∧
    (offered (counted 56 0) 0x200).inputs = PortIn.offer 0x200 :: [] := by decide

/-- The longest wait: the first COMPRESS of a two-block FINALIZE, just loaded. -/
theorem witness_EveryCommandCompletes :
    { State.reset with arch := counted 56 0, activity := .comp1 }.inv = true ∧
    noRst 131 { State.reset with arch := counted 56 0, activity := .comp1 }.inputs = true := by decide

theorem witness_EveryStepKeepsTheInvariant : ∃ t, (trace 64 1 2 3 4).inv = true ∧ step (trace 64 1 2 3 4) = .next t :=
  ⟨_, by decide, rfl⟩

theorem witness_NoStepStops : (trace 63 1 2 3 4).inv = true := by decide

/-- For the whole-machine rules on the counter, the chaining words and the phase: a step that answers in each of their
cases. -/
theorem witness_WholeMachineRules_resets : ∃ t, step (offered finished 0x000) = .next t ∧
    (offered finished 0x000).resets = true := ⟨_, rfl, by decide⟩

theorem witness_WholeMachineRules_counts : ∃ t, step (offered (counted 0xffffffff 0) 0x161) = .next t ∧
    (offered (counted 0xffffffff 0) 0x161).resets = false ∧
    (offered (counted 0xffffffff 0) 0x161).accepts 1 = true := ⟨_, rfl, by decide, by decide⟩

theorem witness_WholeMachineRules_feedsForward : ∃ t, step (trace 64 1 2 3 4) = .next t ∧
    (trace 64 1 2 3 4).resets = false ∧ (trace 64 1 2 3 4).feedsForward = true := ⟨_, rfl, by decide, by decide⟩

/-- An UPDATE in phase ABSORB, for a byte that is not the one at `used`. -/
theorem witness_BufferWritten : ∃ t, (counted 62 0).buf.wf = true ∧ step (offered (counted 62 0) 0x161) = .next t ∧
    (offered (counted 62 0) 0x161).resets = false ∧ (offered (counted 62 0) 0x161).activity ≠ .pad2 ∧
    ((offered (counted 62 0) 0x161).accepts 2 && (counted 62 0).phase == .absorb) = false ∧
    (((offered (counted 62 0) 0x161).accepts 1 && (counted 62 0).phase == .absorb) = true →
      (63 : BitVec 6) ≠ (counted 62 0).used) :=
  ⟨_, by decide, rfl, by decide, by decide, by decide, by decide⟩

theorem witness_DigestSurvivesUntilReset : ∃ t, (offered finished 0x200).inv = true ∧ finished.phase = .done ∧
    step (offered finished 0x200) = .next t ∧ (offered finished 0x200).resets = false :=
  ⟨_, by decide, by decide, rfl, by decide⟩

theorem witness_OfferWhileBusyHasNoEffect :
    { trace 30 1 2 3 4 with inputs := [⟨false, true, 0x161⟩] }.ready = false ∧
    { trace 30 1 2 3 4 with inputs := [⟨false, true, 0x161⟩] }.inputs = ⟨false, true, 0x161⟩ :: [] := by decide

/-- Two states with the same control and other data, offered two UPDATEs of different bytes. -/
theorem witness_TransitionsIgnoreTheData :
    let s₁ := offered (counted 63 0) 0x100
    let s₂ := offered { counted 63 0 with h := ⟨1, 2, 3, 4⟩, buf := [(0, 0x61)] } 0x161
    s₁.sameControl s₂ ∧ s₁.sample.rst = s₂.sample.rst ∧ s₁.sample.cmdValid = s₂.sample.cmdValid ∧
      opField s₁.sample.cmd = opField s₂.sample.cmd ∧ ∃ t, step s₁ = .next t :=
  ⟨⟨rfl, rfl, rfl, rfl, rfl, rfl, rfl, rfl⟩, by decide, by decide, by decide, ⟨_, rfl⟩⟩

/-- `used` = 1 with another stale byte at 1. -/
theorem witness_StaleBytesAreDead :
    let a := { counted 1 0 with buf := [(0, 0x61)] }
    let b := { counted 1 0 with buf := [(0, 0x61), (1, 0x62)] }
    a.buf.wf = true ∧ b.buf.wf = true ∧ a.sameButStale b :=
  ⟨by decide, by decide, rfl, rfl, rfl, rfl, rfl, rfl, by unfold Arch.sameValidBytes; decide⟩

/-- Sequences without a RESET, one correctly sequenced and one not. -/
theorem witness_CorrectSequencesNeverErr : correctlySequenced [0x000, 0x161, 0x200] = true ∧
    (∀ c ∈ ([0x161, 0x200] : List (BitVec 10)), opField c ≠ 0) ∧ correctlySequenced [0x161, 0x200] = true ∧
    (∀ c ∈ ([0x200, 0x161] : List (BitVec 10)), opField c ≠ 0) ∧ correctlySequenced [0x200, 0x161] = false := by decide

/-- For the slice-level statements, `used` = 0 and 63. -/
theorem witness_SliceStatements : (Arch.reset.buf.wf = true ∧ Arch.reset.phase = .absorb) ∧
    (counted 63 0).buf.wf = true ∧ (counted 63 0).phase = .absorb := by decide

/-- A state that holds the empty message, and one that holds 63 zero bytes. -/
theorem witness_BufferInvariantOfAMessage :
    (Arch.reset.buf.wf = true ∧ Arch.reset.phase = .absorb ∧ Arch.reset.holds []) ∧
    (counted 63 0).buf.wf = true ∧ (counted 63 0).phase = .absorb ∧ (counted 63 0).holds (List.replicate 63 0x00) := by
  unfold Arch.holds
  decide

theorem witness_HashStr : ∀ b ∈ ([0x61, 0x62, 0x63] : List Byte), b ≠ 0 := by decide

theorem witness_MachineHashesEveryMessage :
    { State.reset with inputs := paced (hashWords [0x61]) }.activity = .idle ∧
    { State.reset with inputs := paced (hashWords [0x61]) }.inputs = paced (hashWords [0x61]) ++ [] :=
  ⟨rfl, (List.append_nil _).symm⟩

theorem witness_RotationIsCircular : ((1 ≤ 1 ∧ 1 ≤ 31) ∧ 0 < 32) ∧ ((1 ≤ 31 ∧ 31 ≤ 31) ∧ 31 < 32) := by decide

theorem witness_BufferReadAfterWrite : Memory.wf [(0, 0x61), (63, 0x80)] = true := by decide

theorem witness_EqualReadsAreEqualBuffers : Memory.wf [(63, 0x80)] = true ∧ Memory.wf (memWrite1 [] 63 0x80) = true ∧
    ∀ j, memRead1 [(63, 0x80)] j = memRead1 (memWrite1 [] 63 0x80) j := by decide

theorem witness_DigestPort : State.reset.ready = true ∧ State.reset.activity = .idle ∧
    (trace 30 1 2 3 4).activity ≠ .idle := by decide

theorem witness_InstancesRunAsIfAlone : ∃ sys', sysRun [1, 0] [offered Arch.reset 0x161, trace 0 1 2 3 4] = .next sys' :=
  ⟨_, rfl⟩

theorem witness_InstancesAnswer : ∀ (k : Nat) (s : State), ([offered Arch.reset 0x161] : System)[k]? = some s →
    ∃ t, runEdges ([0, 0].count k) s = .next t := by
  intro k s h
  match k, h with
  | 0, h => cases h; exact ⟨_, rfl⟩
  | k + 1, h => cases h

end Sys2Proof.Tests
end

namespace Sys2Proof.Machine

/-! ### Edges without `rst` -/

theorem noRst_add (j k : Nat) (inputs : List PortIn) :
    noRst (j + k) inputs = (noRst j inputs && noRst k (inputs.drop j)) := by
  simp [noRst, List.take_add]

theorem noRst_of_le {j k : Nat} {inputs : List PortIn} (hjk : j ≤ k) (h : noRst k inputs = true) :
    noRst j inputs = true := by
  rw [← Nat.add_sub_of_le hjk, noRst_add, Bool.and_eq_true] at h
  exact h.1

theorem sample_rst_of_noRst {s : State} {k : Nat} (h : noRst (k + 1) s.inputs = true) : s.sample.rst = false := by
  unfold State.sample
  cases hi : s.inputs with
  | nil => rfl
  | cons p rest => simp_all [noRst]

/-! ### The 64 steps are the generic step -/

/-- The steps written out in 43_steps.md are the table form of 42_block_processor.md R159: for each value of STEP
the tables evaluate to the written-out parameters. -/
theorem exec_of_decodeSeq_lt {n : Nat} {i : Instr} (hn : n < 64) (h : decodeSeq (BitVec.ofNat 7 n) = .ok i)
    (s : State) : exec i s = .next { s with
      acc := stepAccum (memRead4 s.arch.buf) n s.acc, stepReg := BitVec.ofNat 7 (n + 1) } := by
  interval_cases n <;> cases h <;> rfl

/-- A word read from the buffer is the word of its 64 bytes (42_block_processor.md R151, R153). -/
theorem word_memBlock (m : Memory) : (memBlock m).word = memRead4 m := by
  funext k
  simp only [Block.word, memBlock, Vector.getElem_ofFn, memRead4, wordAddr, Nat.add_zero]

theorem compress_memBlock (h : Chain) (m : Memory) :
    compress h (memBlock m) = h.addAccum (stepsTo (memRead4 m) (Accum.ofChain h) Config.nSteps) := by
  rw [compress, word_memBlock, compressWords]

/-! ### A COMPRESS in progress -/

/-- The state of a COMPRESS after `n` steps, `n` edges after its load. -/
def State.afterSteps (s : State) (n : Nat) : State :=
  { s with
    acc := stepsTo (memRead4 s.arch.buf) s.acc n
    stepReg := BitVec.ofNat 7 n
    inputs := s.inputs.drop n }

@[simp] theorem afterSteps_arch (s : State) (n : Nat) : (s.afterSteps n).arch = s.arch := rfl
@[simp] theorem afterSteps_acc (s : State) (n : Nat) :
    (s.afterSteps n).acc = stepsTo (memRead4 s.arch.buf) s.acc n := rfl
@[simp] theorem afterSteps_stepReg (s : State) (n : Nat) : (s.afterSteps n).stepReg = BitVec.ofNat 7 n := rfl
@[simp] theorem afterSteps_activity (s : State) (n : Nat) : (s.afterSteps n).activity = s.activity := rfl
@[simp] theorem afterSteps_inputs (s : State) (n : Nat) : (s.afterSteps n).inputs = s.inputs.drop n := rfl
@[simp] theorem afterSteps_compressing (s : State) (n : Nat) :
    (s.afterSteps n).compressing = s.compressing := rfl

theorem afterSteps_zero {s : State} (h0 : s.stepReg = 0) : s.afterSteps 0 = s := by
  cases s
  cases h0
  rfl

theorem step_afterSteps {s : State} {n : Nat} (hc : s.compressing = true) (hn : n < 64)
    (hr : (s.afterSteps n).sample.rst = false) : step (s.afterSteps n) = .next (s.afterSteps (n + 1)) := by
  obtain ⟨i, hi⟩ := decodeSeq_ok (BitVec.ofNat 7 n) (by simp; omega)
  rw [step_of_compressing hr hc hi, exec_of_decodeSeq_lt hn hi]
  simp [State.afterSteps, State.sampled, stepsTo]

theorem runEdges_afterSteps {s : State} (hc : s.compressing = true) (h0 : s.stepReg = 0) {n : Nat} (hn : n ≤ 64)
    (hr : noRst n s.inputs = true) : runEdges n s = .next (s.afterSteps n) := by
  induction n with
  | zero => rw [runEdges, afterSteps_zero h0]
  | succ n ih =>
    rw [noRst_add, Bool.and_eq_true] at hr
    rw [runEdges_add (ih (by omega) hr.1),
      runEdges_succ_of_next (step_afterSteps hc (by omega) (sample_rst_of_noRst hr.2)), runEdges]

/-- The feed-forward edge of a COMPRESS (43_steps.md R264). -/
theorem step_of_stepReg_64 {s : State} (hc : s.compressing = true) (h64 : s.stepReg = 64)
    (hr : s.sample.rst = false) : step s = .next (s.sampled.mapArch (·.feedForward s.acc)).endCompress := by
  have hd : decodeSeq s.stepReg = .ok .feedfwd := by rw [h64]; decide
  rw [step_of_compressing hr hc hd]
  rfl

/-- The feed-forward after `n` steps. Stated for every `n`, so that no check of the proof computes 64 steps. -/
theorem step_afterSteps_of_eq_64 {s : State} {n : Nat} (hn : n = 64) (hc : s.compressing = true)
    (hr : (s.afterSteps n).sample.rst = false) : ∃ t, step (s.afterSteps n) = .next t ∧
      t.arch = { s.arch with
        h := s.arch.h.addAccum (stepsTo (memRead4 s.arch.buf) s.acc n)
        phase := if s.activity = .compT then .done else s.arch.phase } ∧
      t.activity = (if s.activity = .comp1 then .pad2 else .idle) ∧ t.inputs = s.inputs.drop (n + 1) := by
  have hp := (compressing_iff.mp hc).2
  refine ⟨_, step_of_stepReg_64 hc (by rw [afterSteps_stepReg, hn]; rfl) hr, ?_, ?_, ?_⟩
  · by_cases hT : s.activity = .compT <;> simp [endCompress_arch, Arch.feedForward, hT]
  · simp [endCompress_activity, hp]
  · simp [endCompress_inputs]

/-- A loaded COMPRESS of the buffer, run to its end. -/
theorem runEdges_compress {s : State} (hc : s.compressing = true) (ha : s.acc = Accum.ofChain s.arch.h)
    (h0 : s.stepReg = 0) (hr : noRst 65 s.inputs = true) :
    ∃ t, runEdges 65 s = .next t ∧
      t.arch = { s.arch with
        h := compress s.arch.h (memBlock s.arch.buf)
        phase := if s.activity = .compT then .done else s.arch.phase } ∧
      t.activity = (if s.activity = .comp1 then .pad2 else .idle) ∧ t.inputs = s.inputs.drop 65 := by
  rw [noRst_add 64 1, Bool.and_eq_true] at hr
  obtain ⟨t, hstep, harch, hact, hin⟩ := step_afterSteps_of_eq_64 rfl hc (sample_rst_of_noRst hr.2)
  refine ⟨t, ?_, ?_, hact, hin⟩
  · rw [runEdges_add (runEdges_afterSteps hc h0 (le_refl 64) hr.1) 1, runEdges_succ_of_next hstep, runEdges]
  · rw [harch, compress_memBlock, ha]

/-- Settles O30, by induction on the edges: `runEdges_afterSteps` for the steps, `runEdges_compress` for the end. -/
theorem sixtyFiveEdgesComputeCompress : Obligations.SixtyFiveEdgesComputeCompress := by
  intro s hc ha h0 hr
  refine ⟨fun k hk => ⟨s.afterSteps k, ?_, rfl, rfl, rfl⟩, runEdges_compress hc ha h0 hr⟩
  exact runEdges_afterSteps hc h0 hk (noRst_of_le (by omega) hr)

/-! ### Busy runs -/

theorem ready_eq_false_of_compressing {s : State} (hc : s.compressing = true) : s.ready = false := by
  simp [State.ready, (compressing_iff.mp hc).1]

/-- `n` edges lead from `s` to `t`, taking `n` samples; the engine is busy before each of them. -/
def State.busyTo (s : State) (n : Nat) (t : State) : Prop :=
  runEdges n s = .next t ∧ t.inputs = s.inputs.drop n ∧ ∀ k < n, ∃ u, runEdges k s = .next u ∧ u.ready = false

theorem busyTo_inputs {s t : State} {n : Nat} (h : s.busyTo n t) : t.inputs = s.inputs.drop n := h.2.1

theorem busyTo_refl (s : State) : s.busyTo 0 s := ⟨rfl, rfl, fun _ hk => absurd hk (Nat.not_lt_zero _)⟩

theorem busyTo_trans {s t u : State} {j k : Nat} (h : s.busyTo j t) (h' : t.busyTo k u) : s.busyTo (j + k) u := by
  obtain ⟨hrun, hin, hbusy⟩ := h
  obtain ⟨hrun', hin', hbusy'⟩ := h'
  refine ⟨by rw [runEdges_add hrun, hrun'], by rw [hin', hin, List.drop_drop], fun i hi => ?_⟩
  by_cases hij : i < j
  · exact hbusy i hij
  · obtain ⟨v, hv, hready⟩ := hbusy' (i - j) (by omega)
    exact ⟨v, by rw [← Nat.add_sub_of_le (Nat.le_of_not_lt hij), runEdges_add hrun, hv], hready⟩

theorem busyTo_pad2 {s : State} (hp : s.activity = .pad2) (hr : s.sample.rst = false) :
    s.busyTo 1 s.sampled.runPad2 := by
  refine ⟨by rw [runEdges_succ_of_next (step_of_pad2 hr hp), runEdges], by simp, fun k hk => ⟨s, ?_, ?_⟩⟩
  · rw [Nat.lt_one_iff.mp hk, runEdges]
  · simp [State.ready, hp]

/-- The architectural state in which the COMPRESS of a sub-phase returns to its command. -/
def Arch.afterCompress (a : Arch) (k : Activity) : Arch :=
  if k = .compT then { a.compressBuf with phase := .done } else a.compressBuf

/-- A COMPRESS, from its load to the return to its command. -/
theorem startCompress_busyTo (s : State) {k : Activity} (hc : (s.startCompress k).compressing = true)
    (hr : noRst 65 s.inputs = true) : ∃ t, (s.startCompress k).busyTo 65 t ∧ t.arch = s.arch.afterCompress k ∧
      t.activity = (if k = .comp1 then .pad2 else .idle) := by
  obtain ⟨t, hrun, harch, hact, hin⟩ := runEdges_compress hc rfl rfl hr
  refine ⟨t, ⟨hrun, hin, fun j hj => ?_⟩, ?_, hact⟩
  · exact ⟨_, runEdges_afterSteps hc rfl (by omega) (noRst_of_le (by omega) hr),
      ready_eq_false_of_compressing hc⟩
  · rw [harch, Arch.afterCompress, Arch.compressBuf]
    by_cases hk : k = .compT <;> simp [hk]

/-- The two-block FINALIZE after its first edge: COMP1, PAD2, COMPT (44_finalize.md R277). -/
theorem twoBlocks_busyTo (s : State) (hr : noRst 131 s.inputs = true) : ∃ t, (s.startCompress .comp1).busyTo 131 t ∧
      t.arch = s.arch.compressBuf.padFresh.afterCompress .compT ∧ t.activity = .idle := by
  rw [noRst_add 65 66, noRst_add 1 65, Bool.and_eq_true, Bool.and_eq_true] at hr
  obtain ⟨hr1, hr2, hr3⟩ := hr
  obtain ⟨t, hbusy, harch, hact⟩ := startCompress_busyTo s (k := .comp1) rfl hr1
  have hin := busyTo_inputs hbusy
  have hpad := busyTo_pad2 hact (sample_rst_of_noRst (by rw [hin]; exact hr2))
  obtain ⟨u, hbusy', harch', hact'⟩ := startCompress_busyTo (t.sampled.mapArch Arch.padFresh) (k := .compT) rfl
    (by rw [mapArch_inputs, sampled_inputs, hin, ← List.drop_one]; exact hr3)
  refine ⟨u, busyTo_trans hbusy (busyTo_trans hpad hbusy'), ?_, hact'⟩
  rw [harch', mapArch_arch, sampled_arch, harch]
  rfl

/-- What accepting a command word does: it completes at once, or loads one COMPRESS, or the first of two. -/
theorem exec_command_cases (s : State) (c : BitVec 10) :
    (s.arch.compressions c = 0 ∧ ∃ t, exec (decodeCmd c) s = .next t ∧ t.arch = s.arch.transact c ∧
      (s.activity = .idle → t.activity = .idle) ∧ t.inputs = s.inputs) ∨
    (s.arch.compressions c = 1 ∧ ∃ (t : State) (k : Activity), (k = .compU ∨ k = .compT) ∧
      exec (decodeCmd c) s = .next (t.startCompress k) ∧ s.arch.transact c = t.arch.afterCompress k ∧
      t.inputs = s.inputs) ∨
    (s.arch.compressions c = 2 ∧ exec (decodeCmd c) s = .next ((s.mapArch Arch.padFirst).startCompress .comp1) ∧
      s.arch.transact c = s.arch.padFirst.compressBuf.padFresh.afterCompress .compT) := by
  rcases hop : (opField c).toNat with _ | _ | _ | n
  · -- RESET
    exact .inl (by simp [Arch.compressions, Arch.transact, decodeCmd, exec, execReset, hop])
  · -- UPDATE
    cases hphase : s.arch.phase with
    | done =>
      exact .inl (by simp [Arch.compressions, Arch.transact, decodeCmd, exec, execUpdate, Arch.update, hop, hphase])
    | absorb =>
      by_cases hused : s.arch.used = 63#6
      · refine .inr (.inl ⟨by simp [Arch.compressions, hop, hphase, hused],
          s.mapArch (·.writeByte (dataField c)), .compU, .inl rfl, ?_, ?_, rfl⟩)
        · simp [decodeCmd, exec, execUpdate, hop, hphase, hused]
        · simp [Arch.transact, Arch.update, Arch.absorb, Arch.afterCompress, hop, hphase, hused]
      · exact .inl (by simp [Arch.compressions, Arch.transact, decodeCmd, exec, execUpdate, Arch.update,
          Arch.absorb, hop, hphase, hused])
  · -- FINALIZE
    cases hphase : s.arch.phase with
    | done =>
      exact .inl (by simp [Arch.compressions, Arch.transact, decodeCmd, exec, execFinalize, Arch.finalize, hop, hphase])
    | absorb =>
      by_cases htwo : s.arch.twoBlocks = true
      · refine .inr (.inr ⟨by simp [Arch.compressions, hop, hphase, htwo], ?_, ?_⟩)
        · simp [decodeCmd, exec, execFinalize, hop, hphase, htwo]
        · simp [Arch.transact, Arch.finalize, Arch.padAndCompress, Arch.afterCompress, hop, hphase, htwo]
      · refine .inr (.inl ⟨by simp [Arch.compressions, hop, hphase, htwo],
          s.mapArch Arch.padOne, .compT, .inr rfl, ?_, ?_, rfl⟩)
        · simp [decodeCmd, exec, execFinalize, hop, hphase, htwo]
        · simp [Arch.transact, Arch.finalize, Arch.padAndCompress, Arch.afterCompress, hop, hphase, htwo]
  · -- the reserved word
    exact .inl (by simp [Arch.compressions, Arch.transact, decodeCmd, exec, execRsvd, hop])

/-- The edges of an accepted command after the first: `n` of them when its latency is `n + 1`. -/
theorem exec_command_busyTo {s : State} {c : BitVec 10} {n : Nat} (hi : s.activity = .idle)
    (hn : s.arch.latency 1 65 c = n + 1) (hr : noRst n s.inputs = true) :
    ∃ t u, exec (decodeCmd c) s = .next t ∧ t.inputs = s.inputs ∧ t.busyTo n u ∧ u.arch = s.arch.transact c ∧
      u.activity = .idle := by
  rcases exec_command_cases s c with
    ⟨h0, t, he, harch, hact, hin⟩ | ⟨h1, t, k, hk, he, hta, hin⟩ | ⟨h2, he, hta⟩
  · obtain rfl : n = 0 := by simpa [Arch.latency, h0] using hn.symm
    exact ⟨t, t, he, hin, busyTo_refl t, harch, hact hi⟩
  · obtain rfl : n = 65 := by simp [Arch.latency, h1] at hn; omega
    obtain ⟨u, hbusy, harch, hact⟩ := startCompress_busyTo t (k := k) (by rcases hk with rfl | rfl <;> rfl)
      (by rw [hin]; exact hr)
    refine ⟨_, u, he, hin, hbusy, by rw [harch, hta], ?_⟩
    rw [hact]
    rcases hk with rfl | rfl <;> rfl
  · obtain rfl : n = 131 := by simp [Arch.latency, h2] at hn; omega
    obtain ⟨u, hbusy, harch, hact⟩ := twoBlocks_busyTo (s.mapArch Arch.padFirst) hr
    exact ⟨_, u, he, rfl, hbusy, by rw [harch, hta, mapArch_arch], hact⟩

theorem latency_pos (a : Arch) (c : BitVec 10) : 0 < a.latency 1 65 c := by
  unfold Arch.latency
  split <;> omega

/-- Settles O31: the accepting edge of `step_of_command`, then the busy run of `exec_command_busyTo`. -/
theorem edgesRefineTransactions : Obligations.EdgesRefineTransactions := by
  intro s c rest hi hin hr
  obtain ⟨n, hn⟩ := Nat.exists_eq_succ_of_ne_zero (latency_pos s.arch c).ne'
  rw [hn] at hr ⊢
  have hrest : s.sampled.inputs = rest := by rw [sampled_inputs, hin, List.tail_cons]
  have hrn : noRst n s.sampled.inputs = true := by
    rw [hin] at hr
    rw [hrest]
    simpa [noRst, PortIn.offer] using hr
  obtain ⟨t, u, he, htin, ⟨hrun, huin, hbusy⟩, harch, hact⟩ := exec_command_busyTo (s := s.sampled) hi hn hrn
  have hfirst : step s = .next t := by
    have hsample : s.sample = PortIn.offer c := by rw [State.sample, hin, List.headD_cons]
    rw [step_of_command (by rw [hsample]; rfl) hi (by rw [hsample]; rfl), hsample]
    exact he
  refine ⟨⟨u, by rw [runEdges_succ_of_next hfirst, hrun], harch, by simp [State.ready, hact], ?_⟩, ?_⟩
  · rw [huin, htin, hrest, hin, List.drop_succ_cons]
  · intro k hk hkn
    obtain ⟨j, rfl⟩ := Nat.exists_eq_succ_of_ne_zero hk.ne'
    rw [runEdges_succ_of_next hfirst]
    exact hbusy j (Nat.lt_of_succ_lt_succ hkn)

/-! ### Rotation and the halves of the counter -/

theorem rotl32_eq_rotateLeft (x : Word) {s : Nat} (hs : s < 32) : rotl32 x s = x.rotateLeft s := by
  rw [rotl32, BitVec.rotateLeft_def, Nat.mod_eq_of_lt hs]

/-- Settles O51: the rotation is the library's `rotateLeft`, whose bits are known. -/
theorem rotationIsCircular : Obligations.RotationIsCircular := by
  intro x s j h1 h31 hj
  refine ⟨rfl, ?_⟩
  rw [rotl32_eq_rotateLeft x (by omega), BitVec.getLsbD_rotateLeft_of_le (by omega)]
  by_cases hlt : j < s
  · have hidx : (j + 32 - s) % 32 = 32 - s + j := by omega
    simp [hlt, hidx]
  · have hidx : (j + 32 - s) % 32 = j - s := by omega
    simp [hlt, hidx, hj]

theorem toNat_append_word (hi lo : Word) : (hi ++ lo : BitVec 64).toNat = 2 ^ 32 * hi.toNat + lo.toNat := by
  rw [BitVec.toNat_append, Nat.shiftLeft_eq, Nat.mul_comm, Nat.two_pow_add_eq_or_of_lt lo.isLt]

/-- Settles O53, on the numbers: the carry is what the low halves' sum loses mod 2^32. -/
theorem counterHalvesAddModulo64 : Obligations.CounterHalvesAddModulo64 := by
  intro a yLo yHi
  have hlo : (a.addCnt yLo yHi).cntLo.toNat = (a.cntLo.toNat + yLo.toNat) % 2 ^ 32 := by
    rw [addCnt_cntLo, add64Lo, BitVec.toNat_add]
  have hhi : (a.addCnt yLo yHi).cntHi.toNat =
      (a.cntHi.toNat + yHi.toNat + (if 2 ^ 32 ≤ a.cntLo.toNat + yLo.toNat then 1 else 0)) % 2 ^ 32 := by
    rw [addCnt_cntHi, add64Hi, carryOut]
    by_cases hc : 2 ^ 32 ≤ a.cntLo.toNat + yLo.toNat <;> simp only [hc] <;> simp
  refine ⟨hlo, hhi, BitVec.eq_of_toNat_eq ?_⟩
  rw [BitVec.toNat_add, Arch.cnt, Arch.cnt, toNat_append_word, toNat_append_word, toNat_append_word, hlo, hhi]
  split <;> omega

/-- The bits shifted in from the low half fill the three zeros of the high half, so the `|||` is a sum. -/
theorem toNat_shl3Hi (lo hi : Word) : (shl3Hi lo hi).toNat = 2 ^ 3 * (hi.toNat % 2 ^ 29) + lo.toNat / 2 ^ 29 := by
  have hhi : hi.toNat <<< 3 % 2 ^ 32 = 2 ^ 3 * (hi.toNat % 2 ^ 29) := by rw [Nat.shiftLeft_eq]; omega
  have hlo : lo.toNat / 2 ^ 29 < 2 ^ 3 := by have := lo.isLt; omega
  rw [shl3Hi, BitVec.toNat_or, BitVec.toNat_shiftLeft, BitVec.toNat_ushiftRight, hhi, Nat.shiftRight_eq_div_pow,
    Nat.two_pow_add_eq_or_of_lt hlo]

theorem toNat_shl3_append (lo hi : Word) :
    (shl3Hi lo hi ++ shl3Lo lo : BitVec 64).toNat = 8 * (hi ++ lo : BitVec 64).toNat % 2 ^ 64 := by
  have hlo : (shl3Lo lo).toNat = lo.toNat * 2 ^ 3 % 2 ^ 32 := by
    rw [shl3Lo, BitVec.toNat_shiftLeft, Nat.shiftLeft_eq]
  rw [toNat_append_word, toNat_append_word, toNat_shl3Hi, hlo]
  omega

/-- Settles O54, on the numbers (`toNat_shl3_append`). -/
theorem lengthHalvesAreEightTimesTheCount : Obligations.LengthHalvesAreEightTimesTheCount := by
  intro a
  have h8 := toNat_shl3_append a.cntLo a.cntHi
  refine ⟨rfl, rfl, BitVec.eq_of_toNat_eq ?_, h8⟩
  rw [h8, BitVec.toNat_shiftLeft, Nat.shiftLeft_eq, Nat.mul_comm, Arch.cnt]

end Sys2Proof.Machine

namespace Sys2Proof.Machine

/-! ### The buffer as a family of 64 bytes -/

/-- Settles O56: the reads at the 64 addresses are the cells `eq_of_cellAt` asks for. -/
theorem equalReadsAreEqualBuffers : Obligations.EqualReadsAreEqualBuffers := by
  intro m m' hm hm' hread
  refine eq_of_cellAt hm hm' fun j _ hj => ?_
  simpa [memRead1, Nat.mod_eq_of_lt hj] using hread (BitVec.ofNat 6 j)

/-! ### What an accepted command and an edge do -/

/-- The effect of an accepted command word, apart from RESET: one case per branch of 41_update.md R130,
44_finalize.md R270 and 60_exceptions.md R314. -/
inductive State.CommandEffect (s : State) (c : BitVec 10) : State → Prop
  | update (hop : opField c = 1) (hphase : s.arch.phase = .absorb) (hused : s.arch.used ≠ 63) :
      s.CommandEffect c (s.mapArch (·.writeByte (dataField c)))
  | updateFull (hop : opField c = 1) (hphase : s.arch.phase = .absorb) (hused : s.arch.used = 63) :
      s.CommandEffect c ((s.mapArch (·.writeByte (dataField c))).startCompress .compU)
  | finalizeOne (hop : opField c = 2) (hphase : s.arch.phase = .absorb) (htwo : s.arch.twoBlocks = false) :
      s.CommandEffect c ((s.mapArch Arch.padOne).startCompress .compT)
  | finalizeTwo (hop : opField c = 2) (hphase : s.arch.phase = .absorb) (htwo : s.arch.twoBlocks = true) :
      s.CommandEffect c ((s.mapArch Arch.padFirst).startCompress .comp1)
  | misuse {k : Cause} (hk : k ≠ .noCause) (hwhen : s.arch.phase = .done ∨ opField c = 3) :
      s.CommandEffect c (s.mapArch (·.raiseMisuse k))

theorem opField_cases (c : BitVec 10) : opField c = 0 ∨ opField c = 1 ∨ opField c = 2 ∨ opField c = 3 := by
  generalize opField c = op
  revert op
  decide

/-- Running a command word resets, or has one of the listed effects. -/
theorem commandEffect_of_exec {s t : State} {c : BitVec 10} (h : exec (decodeCmd c) s = .next t) :
    (opField c = 0 ∧ t = s.toReset) ∨ (opField c ≠ 0 ∧ s.CommandEffect c t) := by
  rcases opField_cases c with hop | hop | hop | hop
  · have hd : decodeCmd c = .reset (dataField c) := by simp [decodeCmd, hop]
    rw [hd] at h
    cases h
    exact .inl ⟨hop, rfl⟩
  · have hd : decodeCmd c = .update (dataField c) := by simp [decodeCmd, hop]
    rw [hd, exec, execUpdate] at h
    refine .inr ⟨by simp [hop], ?_⟩
    cases hphase : s.arch.phase with
    | done =>
      rw [hphase] at h
      cases h
      exact .misuse (by decide) (.inl hphase)
    | absorb =>
      rw [hphase] at h
      by_cases hused : s.arch.used = 63
      · rw [if_pos hused] at h
        cases h
        exact .updateFull hop hphase hused
      · rw [if_neg hused] at h
        cases h
        exact .update hop hphase hused
  · have hd : decodeCmd c = .finalize (dataField c) := by simp [decodeCmd, hop]
    rw [hd, exec, execFinalize] at h
    refine .inr ⟨by simp [hop], ?_⟩
    cases hphase : s.arch.phase with
    | done =>
      rw [hphase] at h
      cases h
      exact .misuse (by decide) (.inl hphase)
    | absorb =>
      rw [hphase] at h
      cases htwo : s.arch.twoBlocks with
      | true =>
        rw [htwo] at h
        cases h
        exact .finalizeTwo hop hphase htwo
      | false =>
        rw [htwo] at h
        cases h
        exact .finalizeOne hop hphase htwo
  · have hd : decodeCmd c = .rsvd (dataField c) := by simp [decodeCmd, hop]
    rw [hd] at h
    cases h
    exact .inr ⟨by simp [hop], .misuse (by decide) (.inr hop)⟩

/-- Everything a step that answers a next state can have done, with the flags of Safety.lean that name the edge:
does it reset the engine, which word does it accept, does it feed forward. -/
inductive State.Edge (s : State) : State → Prop
  | reset (hres : s.resets = true) : s.Edge s.sampled.toReset
  | hold (hres : s.resets = false) (hidle : s.activity = .idle) (hacc : s.accepted = none)
      (hff : s.feedsForward = false) : s.Edge s.sampled
  | command {c : BitVec 10} {t : State} (hres : s.resets = false) (hacc : s.accepted = some c)
      (hff : s.feedsForward = false) (heff : s.sampled.CommandEffect c t) : s.Edge t
  | pad2 (hres : s.resets = false) (hpad : s.activity = .pad2) (hff : s.feedsForward = false) :
      s.Edge s.sampled.runPad2
  | stepped (hres : s.resets = false) (hc : s.compressing = true) (hlt : s.stepReg.toNat < 64)
      (hff : s.feedsForward = false) (x0 : WReg) (f : Word → Word → Word → Word) (k : BitVec 4) (const : Word)
      (amount : Nat) : s.Edge (s.sampled.seqStep x0 f k const amount (s.stepReg + 1))
  | feedForward (hres : s.resets = false) (hc : s.compressing = true) (hff : s.feedsForward = true) :
      s.Edge (s.sampled.mapArch (·.feedForward s.acc)).endCompress

theorem accepted_of_command {s : State} (hr : s.sample.rst = false) (hi : s.activity = .idle)
    (hv : s.sample.cmdValid = true) : s.accepted = some s.sample.cmd := by
  simp [State.accepted, State.ready, hr, hi, hv]

theorem accepted_of_not_cmdValid {s : State} (hv : s.sample.cmdValid = false) : s.accepted = none := by
  simp [State.accepted, hv]

theorem accepted_of_busy {s : State} (hb : s.activity ≠ .idle) : s.accepted = none := by
  simp [State.accepted, State.ready, hb]

theorem activity_of_accepted {s : State} {c : BitVec 10} (h : s.accepted = some c) : s.activity = .idle := by
  by_contra hb
  rw [accepted_of_busy hb] at h
  cases h

theorem accepts_of_accepted {s : State} {c : BitVec 10} (h : s.accepted = some c) (op : BitVec 2) :
    s.accepts op = (opField c == op) := by
  rw [State.accepts, h]

theorem accepts_of_accepted_none {s : State} (h : s.accepted = none) (op : BitVec 2) : s.accepts op = false := by
  rw [State.accepts, h]

theorem not_compressing_of_idle {s : State} (hi : s.activity = .idle) : s.compressing = false := by
  rw [State.compressing, hi]

theorem not_compressing_of_pad2 {s : State} (hp : s.activity = .pad2) : s.compressing = false := by
  rw [State.compressing, hp]

theorem feedsForward_of_not_compressing {s : State} (h : s.compressing = false) : s.feedsForward = false := by
  simp [State.feedsForward, h]

theorem feedsForward_of_stepReg_ne {s : State} (h : s.stepReg ≠ 64) : s.feedsForward = false := by
  rw [State.feedsForward, beq_false_of_ne h, Bool.and_false]

theorem resets_of_not_rst {s : State} (hr : s.sample.rst = false) : s.resets = s.accepts 0 := by
  rw [State.resets, hr, Bool.false_or]

theorem resets_of_accepted_none {s : State} (hr : s.sample.rst = false) (hacc : s.accepted = none) :
    s.resets = false := by
  rw [resets_of_not_rst hr, accepts_of_accepted_none hacc]

/-- `step_cases`, with the flags of the edge and the command's effect. -/
theorem edge_of_step {s t : State} (h : step s = .next t) : s.Edge t := by
  rcases step_cases h with ⟨hr, rfl⟩ | ⟨hr, hi, hv, rfl⟩ | ⟨hr, hi, hv, he⟩ | ⟨hr, hp, rfl⟩ |
    ⟨hr, hc, hlt, x0, f, k, const, amount, rfl⟩ | ⟨hr, hc, h64, rfl⟩
  · exact .reset (by rw [State.resets, hr, Bool.true_or])
  · have hacc := accepted_of_not_cmdValid hv
    exact .hold (resets_of_accepted_none hr hacc) hi hacc
      (feedsForward_of_not_compressing (not_compressing_of_idle hi))
  · have hacc := accepted_of_command hr hi hv
    have hres : s.resets = (opField s.sample.cmd == 0) := by rw [resets_of_not_rst hr, accepts_of_accepted hacc]
    rcases commandEffect_of_exec he with ⟨hop, rfl⟩ | ⟨hop, heff⟩
    · exact .reset (by rw [hres, hop, beq_self_eq_true])
    · exact .command (by rw [hres, beq_false_of_ne hop]) hacc
        (feedsForward_of_not_compressing (not_compressing_of_idle hi)) heff
  · have hacc : s.accepted = none := accepted_of_busy (by simp [hp])
    exact .pad2 (resets_of_accepted_none hr hacc) hp
      (feedsForward_of_not_compressing (not_compressing_of_pad2 hp))
  · have hacc : s.accepted = none := accepted_of_busy (compressing_iff.mp hc).1
    have h64 : s.stepReg ≠ 64 := fun h64 => absurd hlt (by simp [h64])
    exact .stepped (resets_of_accepted_none hr hacc) hc hlt (feedsForward_of_stepReg_ne h64) x0 f k const amount
  · have hacc : s.accepted = none := accepted_of_busy (compressing_iff.mp hc).1
    exact .feedForward (resets_of_accepted_none hr hacc) hc (by simp [State.feedsForward, hr, hc, h64])

/-! ### Who writes the chaining words, PHASE and BUF -/

theorem commandEffect_h {s t : State} {c : BitVec 10} (h : s.CommandEffect c t) : t.arch.h = s.arch.h := by
  cases h <;> simp

theorem commandEffect_phase {s t : State} {c : BitVec 10} (h : s.CommandEffect c t) :
    t.arch.phase = s.arch.phase := by
  cases h <;> simp

theorem endCompress_h (s : State) : s.endCompress.arch.h = s.arch.h := by
  rw [endCompress_arch]; split <;> rfl

theorem endCompress_buf (s : State) : s.endCompress.arch.buf = s.arch.buf := by
  rw [endCompress_arch]; split <;> rfl

theorem endCompress_phase (s : State) :
    s.endCompress.arch.phase = if s.activity = .compT then .done else s.arch.phase := by
  rw [endCompress_arch]; split <;> rfl

/-- Settles O37, over the cases of an edge. -/
theorem chainingWordsWrittenByResetAndFeedForward : Obligations.ChainingWordsWrittenByResetAndFeedForward := by
  intro s t h
  cases edge_of_step h with
  | reset hres => rw [if_pos hres, toReset_arch]; rfl
  | hold hres _ _ hff => simp [hres, hff]
  | command hres _ hff heff => simp [hres, hff, commandEffect_h heff]
  | pad2 hres _ hff => simp [hres, hff]
  | stepped hres _ _ hff => simp [hres, hff]
  | feedForward hres _ hff => simp [hres, hff, endCompress_h, Chain.addAccum]

/-- Settles O38, over the cases of an edge. -/
theorem phaseWrittenByResetAndCompletion : Obligations.PhaseWrittenByResetAndCompletion := by
  intro s t h
  cases edge_of_step h with
  | reset hres => simp [hres]
  | hold hres _ _ hff => simp [hres, hff]
  | command hres _ hff heff => simp [hres, hff, commandEffect_phase heff]
  | pad2 hres _ hff => simp [hres, hff]
  | stepped hres _ _ hff => simp [hres, hff]
  | feedForward hres _ hff =>
    rw [endCompress_phase]
    by_cases hT : s.activity = .compT <;> simp [hres, hff, hT]

/-- Settles O39, over the cases of an edge; the write of an UPDATE is `memRead1_memWrite1`. -/
theorem bufferWrittenByUpdatePaddingAndReset : Obligations.BufferWrittenByUpdatePaddingAndReset := by
  intro s t hwf h hnores hnopad hnofin j hj
  cases edge_of_step h with
  | reset hres => simp [hres] at hnores
  | hold => rfl
  | pad2 _ hpad => exact absurd hpad hnopad
  | stepped => rfl
  | feedForward => rw [endCompress_buf]; rfl
  | @command c _ _ hacc _ heff =>
    rw [accepts_of_accepted hacc] at hj hnofin
    have hupdate (x : Byte) (hop : opField c = 1) (hphase : s.arch.phase = .absorb) :
        memRead1 (s.arch.writeByte x).buf j = memRead1 s.arch.buf j := by
      rw [writeByte_buf, memRead1_memWrite1 hwf, if_neg (hj (by simp [hop, hphase]))]
    cases heff with
    | update hop hphase => exact hupdate _ hop hphase
    | updateFull hop hphase => exact hupdate _ hop hphase
    | finalizeOne hop hphase => simp [hop, show s.arch.phase = .absorb from hphase] at hnofin
    | finalizeTwo hop hphase => simp [hop, show s.arch.phase = .absorb from hphase] at hnofin
    | misuse => simp

/-! ### The invariant of a run -/

theorem used_congr {a b : Arch} (h : a.cntLo = b.cntLo) : a.used = b.used := by rw [Arch.used, Arch.used, h]

theorem twoBlocks_congr {a b : Arch} (h : a.cntLo = b.cntLo) : a.twoBlocks = b.twoBlocks := by
  rw [Arch.twoBlocks, Arch.twoBlocks, Arch.free, Arch.free, used_congr h]

theorem errAgrees_congr {a b : Arch} (herr : a.err = b.err) (hcause : a.cause = b.cause) :
    a.errAgrees = b.errAgrees := by
  rw [Arch.errAgrees, Arch.errAgrees, herr, hcause]

theorem errAgrees_raiseMisuse {a : Arch} {k : Cause} (h : a.errAgrees = true) (hk : k ≠ .noCause) :
    (a.raiseMisuse k).errAgrees = true := by
  rw [Arch.raiseMisuse]
  split
  · exact h
  · simp [Arch.errAgrees, hk]

theorem toNat_used (a : Arch) : a.used.toNat = a.cntLo.toNat % 64 := by
  rw [Arch.used, BitVec.extractLsb'_toNat, Nat.shiftRight_zero]

theorem used_writeByte (a : Arch) (x : Byte) : (a.writeByte x).used = a.used + 1 := by
  apply BitVec.eq_of_toNat_eq
  rw [toNat_used, BitVec.toNat_add, toNat_used, writeByte_cntLo, add64Lo, BitVec.toNat_add]
  change (_ + 1) % 2 ^ 32 % 64 = (_ + 1) % 2 ^ 6
  omega

theorem wf_writeByte {a : Arch} (h : a.buf.wf = true) (x : Byte) : (a.writeByte x).buf.wf = true :=
  wf_memWrite1 h _ _

theorem wf_writeLength (a : Arch) {m : Memory} (h : m.wf = true) : (a.writeLength m).wf = true :=
  wf_memWrite4 (wf_memWrite4 h _ _) _ _

theorem wf_terminated {a : Arch} (h : a.buf.wf = true) : a.terminated.wf = true := wf_memWrite1 h _ _

theorem wf_padOne {a : Arch} (h : a.buf.wf = true) : a.padOne.buf.wf = true := by
  rw [padOne_buf]
  exact wf_writeLength a (wf_zeroFill (wf_terminated h) _ _)

theorem wf_padFirst {a : Arch} (h : a.buf.wf = true) : a.padFirst.buf.wf = true := by
  rw [padFirst_buf]
  exact wf_zeroFill (wf_terminated h) _ _

theorem wf_clearBuf : clearBuf.wf = true := rfl

theorem wf_padFresh (a : Arch) : a.padFresh.buf.wf = true := by
  rw [padFresh_buf]
  exact wf_writeLength a wf_clearBuf

/-- What a sub-phase says of the architectural state: the last clause of `State.inv` (`inv_iff`). -/
def Arch.meets (a : Arch) : Activity → Prop
  | .idle => True
  | .compU => a.phase = .absorb ∧ a.used = 0
  | .comp1 => a.phase = .absorb ∧ a.twoBlocks = true
  | .pad2 => a.phase = .absorb ∧ a.twoBlocks = true
  | .compT => a.phase = .absorb

theorem inv_iff (s : State) : s.inv = true ↔
    s.arch.buf.wf = true ∧ s.arch.errAgrees = true ∧ s.stepReg.toNat ≤ 64 ∧ s.arch.meets s.activity := by
  rw [State.inv]
  cases s.activity <;> simp [Arch.meets, and_assoc]

theorem meets_phase {a : Arch} {k : Activity} (h : a.meets k) (hk : k ≠ .idle) : a.phase = .absorb := by
  cases k with
  | idle => exact absurd rfl hk
  | compU => exact h.1
  | comp1 => exact h.1
  | pad2 => exact h.1
  | compT => exact h

/-- The invariant after an accepted command: the sub-phase it begins is the one its branch is for. -/
theorem commandEffect_inv {s t : State} {c : BitVec 10} (h : s.inv = true) (hi : s.activity = .idle)
    (heff : s.CommandEffect c t) : t.inv = true := by
  obtain ⟨hwf, herr, hstep, -⟩ := (inv_iff s).mp h
  rw [inv_iff]
  cases heff with
  | update =>
    exact ⟨wf_writeByte hwf _, herr, hstep, by rw [mapArch_activity, hi]; trivial⟩
  | updateFull _ hphase hused =>
    exact ⟨wf_writeByte hwf _, herr, Nat.zero_le _, hphase, by
      rw [startCompress_arch, mapArch_arch, used_writeByte, hused]; rfl⟩
  | finalizeOne _ hphase =>
    exact ⟨wf_padOne hwf, (errAgrees_congr (padOne_err _) (padOne_cause _)).trans herr, Nat.zero_le _,
      (padOne_phase _).trans hphase⟩
  | finalizeTwo _ hphase htwo =>
    exact ⟨wf_padFirst hwf, (errAgrees_congr (padFirst_err _) (padFirst_cause _)).trans herr, Nat.zero_le _,
      (padFirst_phase _).trans hphase, (twoBlocks_congr (padFirst_cntLo _)).trans htwo⟩
  | misuse hk =>
    exact ⟨by simpa using hwf, errAgrees_raiseMisuse herr hk, hstep, by rw [mapArch_activity, hi]; trivial⟩

theorem endCompress_errAgrees (s : State) : s.endCompress.arch.errAgrees = s.arch.errAgrees := by
  rw [endCompress_arch]; split <;> rfl

theorem endCompress_meets {s : State} (hc : s.compressing = true) (h : s.arch.meets s.activity) :
    s.endCompress.arch.meets s.endCompress.activity := by
  obtain ⟨hidle, hpad⟩ := compressing_iff.mp hc
  rw [endCompress_arch, endCompress_activity]
  cases ha : s.activity with
  | idle => exact absurd ha hidle
  | pad2 => exact absurd ha hpad
  | compU => trivial
  | compT => trivial
  | comp1 => rw [ha] at h; exact h

/-- Settles O33, over the cases of an edge. -/
theorem everyStepKeepsTheInvariant : Obligations.EveryStepKeepsTheInvariant := by
  intro s t h hstep
  obtain ⟨hwf, herr, hle, hmeets⟩ := (inv_iff s).mp h
  cases edge_of_step hstep with
  | reset => exact (inv_iff _).mpr ⟨rfl, rfl, dropSequencer_stepReg_le _, trivial⟩
  | hold => exact (inv_iff _).mpr ⟨hwf, herr, hle, hmeets⟩
  | command _ hacc _ heff =>
    exact commandEffect_inv (s := s.sampled) ((inv_iff _).mpr ⟨hwf, herr, hle, hmeets⟩)
      (activity_of_accepted (s := s) hacc) heff
  | pad2 _ hpad =>
    exact (inv_iff _).mpr ⟨wf_padFresh _, (errAgrees_congr (padFresh_err _) (padFresh_cause _)).trans herr,
      Nat.zero_le _, (padFresh_phase _).trans (meets_phase hmeets (by simp [hpad]))⟩
  | stepped _ _ hlt =>
    refine (inv_iff _).mpr ⟨hwf, herr, ?_, hmeets⟩
    rw [seqStep_stepReg, BitVec.toNat_add]
    change (_ + 1) % 2 ^ 7 ≤ 64
    omega
  | feedForward _ hc =>
    exact (inv_iff _).mpr ⟨by rw [endCompress_buf]; exact hwf, by rw [endCompress_errAgrees]; exact herr,
      endCompress_stepReg_le _, endCompress_meets hc hmeets⟩

/-- Settles O34. -/
theorem resetMeetsTheInvariant : Obligations.ResetMeetsTheInvariant :=
  (inv_iff State.reset).mpr ⟨rfl, rfl, Nat.zero_le _, trivial⟩

/-- The misuse entry writes ERR and ERR_CAUSE only (60_exceptions.md R313). -/
theorem raiseMisuse_frame (a : Arch) (k : Cause) :
    a.raiseMisuse k = { a with err := (a.raiseMisuse k).err, cause := (a.raiseMisuse k).cause } := by
  rw [Arch.raiseMisuse]; split <;> rfl

theorem commandEffect_of_done {s t : State} {c : BitVec 10} (hdone : s.arch.phase = .done)
    (heff : s.CommandEffect c t) : ∃ k, t = s.mapArch (·.raiseMisuse k) := by
  cases heff with
  | misuse => exact ⟨_, rfl⟩
  | update _ hphase => rw [hdone] at hphase; cases hphase
  | updateFull _ hphase => rw [hdone] at hphase; cases hphase
  | finalizeOne _ hphase => rw [hdone] at hphase; cases hphase
  | finalizeTwo _ hphase => rw [hdone] at hphase; cases hphase

theorem idle_of_inv_of_done {s : State} (hinv : s.inv = true) (hdone : s.arch.phase = .done) :
    s.activity = .idle := by
  obtain ⟨-, -, -, hmeets⟩ := (inv_iff s).mp hinv
  by_contra hbusy
  rw [meets_phase hmeets hbusy] at hdone
  cases hdone

/-- From phase DONE with no command in progress, an edge that does not reset the engine writes ERR and ERR_CAUSE
only, and begins nothing. -/
theorem edge_of_done {s t : State} (hidle : s.activity = .idle) (hdone : s.arch.phase = .done)
    (hnores : s.resets = false) (hedge : s.Edge t) :
    t.arch = { s.arch with err := t.arch.err, cause := t.arch.cause } ∧ t.activity = .idle := by
  cases hedge with
  | reset hres => rw [hres] at hnores; cases hnores
  | hold => exact ⟨rfl, hidle⟩
  | pad2 _ hpad => rw [hpad] at hidle; cases hidle
  | stepped _ hc => rw [not_compressing_of_idle hidle] at hc; cases hc
  | feedForward _ hc => rw [not_compressing_of_idle hidle] at hc; cases hc
  | command _ _ _ heff =>
    obtain ⟨k, rfl⟩ := commandEffect_of_done (s := s.sampled) hdone heff
    exact ⟨raiseMisuse_frame s.arch k, hidle⟩

/-- Settles O40: the invariant leaves no command in progress in phase DONE, and a command that is accepted there is
a misuse. -/
theorem digestSurvivesUntilReset : Obligations.DigestSurvivesUntilReset := by
  intro s t hinv hdone hstep hnores
  have hidle := idle_of_inv_of_done hinv hdone
  obtain ⟨harch, hact⟩ := edge_of_done hidle hdone hnores (edge_of_step hstep)
  have hready : t.ready = true := by rw [State.ready, hact]; rfl
  have hready' : s.ready = true := by rw [State.ready, hidle]; rfl
  have hh : t.arch.h = s.arch.h := by rw [harch]
  have hphase : t.arch.phase = .done := by rw [harch]; exact hdone
  refine ⟨harch, hready, ?_, ?_⟩
  · simp only [State.outputs, hready, hready', hh]
  · simp only [State.outputs, hready, hphase, Phase.bit, Bool.and_self]

/-! ### The reset state -/

theorem reset_outputs {t : State} (harch : t.arch = Arch.reset) (hidle : t.activity = .idle) : t.outputs =
    ⟨true, some 0x1032547698badcfeefcdab8967452301, false, false, 0, some 0, some 0⟩ := by
  have hready : t.ready = true := by rw [State.ready, hidle]; rfl
  rw [State.outputs, harch, hready]
  decide

/-- Settles O8: the three ways to the reset state leave the architectural state of `Arch.reset` and no command in
progress. -/
theorem resetStateAndItsOutputs : Obligations.ResetStateAndItsOutputs := by
  intro t ht
  have hreset : t.arch = Arch.reset ∧ t.activity = .idle := by
    rcases ht with rfl | ⟨s, hr, hstep⟩ | ⟨s, d, hexec⟩
    · exact ⟨rfl, rfl⟩
    · rw [step_of_rst hr] at hstep
      cases hstep
      exact ⟨rfl, rfl⟩
    · cases hexec
      exact ⟨rfl, rfl⟩
  obtain ⟨harch, hidle⟩ := hreset
  refine ⟨?_, ?_, reset_outputs harch hidle⟩
  · rw [harch]
    exact ⟨rfl, rfl, rfl, memRead1_nil, rfl, rfl, rfl⟩
  · rw [harch]
    decide

/-! ### Stale bytes -/

/-- A read of the padded buffer up to `hi` (44_finalize.md R271, R273, R274): the valid bytes, the termination byte,
zeros. -/
theorem memRead1_zeroFill_terminated {a : Arch} (h : a.buf.wf = true) {hi : Nat} (hhi : hi ≤ 63) (j : BitVec 6)
    (hj : j.toNat ≤ hi) : memRead1 (zeroFill a.terminated (a.used.toNat + 1) hi) j =
      if j < a.used then memRead1 a.buf j else if j = a.used then 0x80 else 0 := by
  have hused := a.used.isLt
  rw [memRead1_zeroFill (wf_terminated h) _ _ hhi (by omega), Arch.terminated, memRead1_memWrite1 h]
  rcases Nat.lt_trichotomy j.toNat a.used.toNat with hlt | heq | hgt
  · rw [if_neg (by omega), if_neg (by bv_omega), if_pos (by bv_omega)]
  · rw [if_neg (by omega), if_pos (by bv_omega), if_neg (by bv_omega), if_pos (by bv_omega)]
  · rw [if_pos (by omega), if_neg (by bv_omega), if_neg (by bv_omega)]

theorem memRead1_writeLength (a : Arch) {m : Memory} (h : m.wf = true) (j : BitVec 6) :
    memRead1 (a.writeLength m) j =
      if j.toNat / 4 = 15 then le32Byte (shl3Hi a.cntLo a.cntHi) (j.toNat % 4)
      else if j.toNat / 4 = 14 then le32Byte (shl3Lo a.cntLo) (j.toNat % 4) else memRead1 m j := by
  rw [Arch.writeLength, memRead1_memWrite4 (wf_memWrite4 h _ _), memRead1_memWrite4 h]
  rfl

theorem sameButStale_refl (a : Arch) : a.sameButStale a := ⟨rfl, rfl, rfl, rfl, rfl, rfl, fun _ _ => rfl⟩

theorem sameButStale_cntLo {a b : Arch} (h : a.sameButStale b) : a.cntLo = b.cntLo := h.2.1

theorem sameButStale_used {a b : Arch} (h : a.sameButStale b) : a.used = b.used :=
  used_congr (sameButStale_cntLo h)

theorem sameButStale_twoBlocks {a b : Arch} (h : a.sameButStale b) : a.twoBlocks = b.twoBlocks :=
  twoBlocks_congr (sameButStale_cntLo h)

theorem sameButStale_phase {a b : Arch} (h : a.sameButStale b) : a.phase = b.phase := by
  obtain ⟨-, -, -, hphase, -⟩ := h
  exact hphase

theorem sameButStale_valid {a b : Arch} (h : a.sameButStale b) {j : BitVec 6} (hj : j < a.used) :
    memRead1 a.buf j = memRead1 b.buf j := by
  obtain ⟨-, -, -, -, -, -, hvalid⟩ := h
  exact hvalid j hj

/-- Where the buffer is replaced, stale bytes are gone. -/
theorem sameButStale_with_buf {a b : Arch} (h : a.sameButStale b) {m m' : Memory} (hm : m = m') :
    ({ a with buf := m } : Arch) = { b with buf := m' } := by
  obtain ⟨hh, hlo, hhi, hphase, herr, hcause, -⟩ := h
  rw [hh, hlo, hhi, hphase, herr, hcause, hm]

theorem sameButStale_writeLength {a b : Arch} (h : a.sameButStale b) (m : Memory) :
    a.writeLength m = b.writeLength m := by
  obtain ⟨-, hlo, hhi, -⟩ := h
  rw [Arch.writeLength, Arch.writeLength, hlo, hhi]

/-- The padding overwrites every stale byte up to `hi`. -/
theorem sameButStale_padded {a b : Arch} (ha : a.buf.wf = true) (hb : b.buf.wf = true) (h : a.sameButStale b)
    {hi : Nat} (hhi : hi ≤ 63) {j : BitVec 6} (hj : j.toNat ≤ hi) :
    memRead1 (zeroFill a.terminated (a.used.toNat + 1) hi) j =
      memRead1 (zeroFill b.terminated (b.used.toNat + 1) hi) j := by
  rw [memRead1_zeroFill_terminated ha hhi j hj, memRead1_zeroFill_terminated hb hhi j hj, ← sameButStale_used h]
  by_cases hlt : j < a.used
  · rw [if_pos hlt, if_pos hlt, sameButStale_valid h hlt]
  · rw [if_neg hlt, if_neg hlt]

theorem sameButStale_padFirst {a b : Arch} (ha : a.buf.wf = true) (hb : b.buf.wf = true) (h : a.sameButStale b) :
    a.padFirst = b.padFirst :=
  sameButStale_with_buf h (equalReadsAreEqualBuffers _ _ (wf_padFirst ha) (wf_padFirst hb) fun j =>
    sameButStale_padded ha hb h le_rfl (by omega))

theorem sameButStale_padOne {a b : Arch} (ha : a.buf.wf = true) (hb : b.buf.wf = true) (h : a.sameButStale b) :
    a.padOne = b.padOne := by
  have hwf {c : Arch} (hc : c.buf.wf = true) := wf_zeroFill (wf_terminated hc) (c.used.toNat + 1) 55
  rw [Arch.padOne, Arch.padOne, sameButStale_writeLength h]
  refine sameButStale_with_buf h (equalReadsAreEqualBuffers _ _ (wf_writeLength b (hwf ha))
    (wf_writeLength b (hwf hb)) fun j => ?_)
  rw [memRead1_writeLength b (hwf ha), memRead1_writeLength b (hwf hb)]
  by_cases h15 : j.toNat / 4 = 15
  · rw [if_pos h15, if_pos h15]
  · rw [if_neg h15, if_neg h15]
    by_cases h14 : j.toNat / 4 = 14
    · rw [if_pos h14, if_pos h14]
    · rw [if_neg h14, if_neg h14]
      exact sameButStale_padded ha hb h (by omega) (by omega)

theorem padAndCompress_eq_of_sameButStale {a b : Arch} (ha : a.buf.wf = true) (hb : b.buf.wf = true)
    (h : a.sameButStale b) : a.padAndCompress = b.padAndCompress := by
  rw [Arch.padAndCompress, Arch.padAndCompress, sameButStale_twoBlocks h, sameButStale_padFirst ha hb h,
    sameButStale_padOne ha hb h]

theorem memRead1_writeByte {a : Arch} (h : a.buf.wf = true) (x : Byte) (j : BitVec 6) :
    memRead1 (a.writeByte x).buf j = if j = a.used then x else memRead1 a.buf j := by
  rw [writeByte_buf, memRead1_memWrite1 h]

/-- The byte an UPDATE writes becomes valid; the bytes above it stay stale. -/
theorem sameButStale_writeByte_read {a b : Arch} (ha : a.buf.wf = true) (hb : b.buf.wf = true)
    (h : a.sameButStale b) (x : Byte) {j : BitVec 6} (hj : j ≤ a.used) :
    memRead1 (a.writeByte x).buf j = memRead1 (b.writeByte x).buf j := by
  rw [memRead1_writeByte ha, memRead1_writeByte hb, ← sameButStale_used h]
  by_cases heq : j = a.used
  · rw [if_pos heq, if_pos heq]
  · rw [if_neg heq, if_neg heq, sameButStale_valid h (by bv_omega)]

theorem sameButStale_writeByte {a b : Arch} (ha : a.buf.wf = true) (hb : b.buf.wf = true)
    (h : a.sameButStale b) (x : Byte) : (a.writeByte x).sameButStale (b.writeByte x) := by
  obtain ⟨hh, hlo, hhi, hphase, herr, hcause, -⟩ := id h
  refine ⟨hh, ?_, ?_, hphase, herr, hcause, fun j hj => ?_⟩
  · rw [writeByte_cntLo, writeByte_cntLo, hlo]
  · rw [writeByte_cntHi, writeByte_cntHi, hlo, hhi]
  · rw [used_writeByte] at hj
    exact sameButStale_writeByte_read ha hb h x (by bv_omega)

theorem sameButStale_absorb {a b : Arch} (ha : a.buf.wf = true) (hb : b.buf.wf = true) (h : a.sameButStale b)
    (x : Byte) : (a.absorb x).sameButStale (b.absorb x) := by
  have hwrite := sameButStale_writeByte ha hb h x
  rw [Arch.absorb, Arch.absorb, ← sameButStale_used h]
  by_cases hused : a.used = 63
  · have hbuf : (a.writeByte x).buf = (b.writeByte x).buf :=
      equalReadsAreEqualBuffers _ _ (wf_writeByte ha x) (wf_writeByte hb x) fun j =>
        sameButStale_writeByte_read ha hb h x (by bv_omega)
    have heq : a.writeByte x = b.writeByte x := sameButStale_with_buf hwrite hbuf
    rw [if_pos hused, if_pos hused, heq]
    exact sameButStale_refl _
  · rw [if_neg hused, if_neg hused]
    exact hwrite

theorem sameButStale_raiseMisuse {a b : Arch} (h : a.sameButStale b) (k : Cause) :
    (a.raiseMisuse k).sameButStale (b.raiseMisuse k) := by
  obtain ⟨hh, hlo, hhi, hphase, herr, hcause, hvalid⟩ := h
  rw [Arch.raiseMisuse, Arch.raiseMisuse, ← herr]
  split
  · exact ⟨hh, hlo, hhi, hphase, herr, hcause, hvalid⟩
  · exact ⟨hh, hlo, hhi, hphase, rfl, rfl, hvalid⟩

theorem transact_of_reset {c : BitVec 10} (hop : opField c = 0) (a : Arch) : a.transact c = Arch.reset := by
  rw [Arch.transact, hop]; rfl

theorem transact_of_update {c : BitVec 10} (hop : opField c = 1) (a : Arch) :
    a.transact c = a.update (dataField c) := by
  rw [Arch.transact, hop]; rfl

theorem transact_of_finalize {c : BitVec 10} (hop : opField c = 2) (a : Arch) : a.transact c = a.finalize := by
  rw [Arch.transact, hop]; rfl

theorem transact_of_rsvd {c : BitVec 10} (hop : opField c = 3) (a : Arch) :
    a.transact c = a.raiseMisuse .reservedOpcode := by
  rw [Arch.transact, hop]; rfl

theorem update_of_absorb {a : Arch} (h : a.phase = .absorb) (x : Byte) : a.update x = a.absorb x := by
  rw [Arch.update, h]

theorem update_of_done {a : Arch} (h : a.phase = .done) (x : Byte) :
    a.update x = a.raiseMisuse .updateAfterFinalize := by
  rw [Arch.update, h]

theorem finalize_of_absorb {a : Arch} (h : a.phase = .absorb) : a.finalize = a.padAndCompress := by
  rw [Arch.finalize, h]

theorem finalize_of_done {a : Arch} (h : a.phase = .done) : a.finalize = a.raiseMisuse .finalizeTwice := by
  rw [Arch.finalize, h]

/-- Settles O43, over the command words: an UPDATE makes valid only the byte it writes, and a FINALIZE overwrites
every stale byte before it compresses. -/
theorem staleBytesAreDead : Obligations.StaleBytesAreDead := by
  intro a b c ha hb h
  have hphase := sameButStale_phase h
  rcases opField_cases c with hop | hop | hop | hop
  · rw [transact_of_reset hop, transact_of_reset hop]
    exact sameButStale_refl _
  · rw [transact_of_update hop, transact_of_update hop]
    cases hp : a.phase with
    | absorb =>
      rw [update_of_absorb hp, update_of_absorb (hphase ▸ hp)]
      exact sameButStale_absorb ha hb h _
    | done =>
      rw [update_of_done hp, update_of_done (hphase ▸ hp)]
      exact sameButStale_raiseMisuse h _
  · rw [transact_of_finalize hop, transact_of_finalize hop]
    cases hp : a.phase with
    | absorb =>
      rw [finalize_of_absorb hp, finalize_of_absorb (hphase ▸ hp), padAndCompress_eq_of_sameButStale ha hb h]
      exact sameButStale_refl _
    | done =>
      rw [finalize_of_done hp, finalize_of_done (hphase ▸ hp)]
      exact sameButStale_raiseMisuse h _
  · rw [transact_of_rsvd hop, transact_of_rsvd hop]
    exact sameButStale_raiseMisuse h _

/-! ### The buffer invariant of a message -/

theorem takeBlocks_append {n : Nat} {l : List Byte} (h : 64 * n ≤ l.length) (r : List Byte) :
    takeBlocks n (l ++ r) = takeBlocks n l := by
  induction n generalizing l with
  | zero => rfl
  | succ n ih =>
    have hhead : blockOf (l ++ r) = blockOf l := by
      refine Vector.ext fun j hj => ?_
      have hlt : j < l.length := lt_of_lt_of_le (b := 64) hj (by omega)
      simp only [blockOf, Vector.getElem_ofFn, List.getD_append _ _ _ _ hlt]
    rw [takeBlocks, takeBlocks, hhead, List.drop_append_of_le_length (by omega), ih (by rw [List.length_drop]; omega)]

theorem takeBlocks_succ (n : Nat) (l : List Byte) :
    takeBlocks (n + 1) l = takeBlocks n l ++ [blockOf (l.drop (64 * n))] := by
  induction n generalizing l with
  | zero => rfl
  | succ n ih =>
    rw [takeBlocks, ih, takeBlocks, List.drop_drop, List.cons_append, Nat.mul_succ, Nat.add_comm 64]

/-- A byte that does not fill a block adds none. -/
theorem blocks_concat_of_ne {m : List Byte} (x : Byte) (h : m.length % 64 ≠ 63) : blocks (m ++ [x]) = blocks m := by
  have hq : (m ++ [x]).length / 64 = m.length / 64 := by rw [List.length_append, List.length_singleton]; omega
  rw [blocks, hq, takeBlocks_append (by omega), blocks]

/-- A byte that fills a block adds it at the end. -/
theorem blocks_concat_of_eq {m : List Byte} (x : Byte) (h : m.length % 64 = 63) :
    blocks (m ++ [x]) = blocks m ++ [blockOf ((m ++ [x]).drop (64 * (m.length / 64)))] := by
  have hq : (m ++ [x]).length / 64 = m.length / 64 + 1 := by
    rw [List.length_append, List.length_singleton]; omega
  rw [blocks, hq, takeBlocks_succ, takeBlocks_append (by omega), blocks]

theorem holds_cnt {a : Arch} {m : List Byte} (h : a.holds m) : a.cnt = BitVec.ofNat 64 m.length := h.1

theorem holds_h {a : Arch} {m : List Byte} (h : a.holds m) : a.h = (blocks m).foldl compress Chain.iv := h.2.1

theorem toNat_used_eq_cnt_mod (a : Arch) : a.used.toNat = a.cnt.toNat % 64 := by
  rw [toNat_used, Arch.cnt, toNat_append_word]
  omega

theorem cnt_congr {a b : Arch} (hlo : a.cntLo = b.cntLo) (hhi : a.cntHi = b.cntHi) : a.cnt = b.cnt := by
  rw [Arch.cnt, Arch.cnt, hlo, hhi]

theorem cnt_compressBuf (a : Arch) : a.compressBuf.cnt = a.cnt :=
  cnt_congr (compressBuf_cntLo a) (compressBuf_cntHi a)

theorem cnt_writeByte (a : Arch) (x : Byte) : (a.writeByte x).cnt = a.cnt + 1 := by
  obtain ⟨-, -, hcnt⟩ := counterHalvesAddModulo64 a 1 0
  exact hcnt

theorem holds_used {a : Arch} {m : List Byte} (h : a.holds m) : a.used.toNat = m.length % 64 := by
  rw [toNat_used_eq_cnt_mod, holds_cnt h, BitVec.toNat_ofNat]
  omega

/-- After the byte write of an UPDATE, the bytes up to the written one are those of the message. -/
theorem holds_writeByte_read {a : Arch} {m : List Byte} (hwf : a.buf.wf = true) (h : a.holds m) (x : Byte)
    {j : BitVec 6} (hj : j ≤ a.used) :
    memRead1 (a.writeByte x).buf j = (m ++ [x]).getD (64 * (m.length / 64) + j.toNat) 0 := by
  have hused := holds_used h
  obtain ⟨-, -, hvalid⟩ := h
  rw [memRead1_writeByte hwf]
  by_cases heq : j = a.used
  · have hidx : 64 * (m.length / 64) + j.toNat = m.length := by rw [heq, hused]; omega
    rw [if_pos heq, hidx]
    simp
  · have hlt : j < a.used := by bv_omega
    rw [if_neg heq, hvalid j hlt, List.getD_append _ _ _ _ (by bv_omega)]

/-- The block an UPDATE of byte 63 compresses is the last block of the message. -/
theorem holds_memBlock {a : Arch} {m : List Byte} (hwf : a.buf.wf = true) (h : a.holds m) (hused : a.used = 63)
    (x : Byte) : memBlock (a.writeByte x).buf = blockOf ((m ++ [x]).drop (64 * (m.length / 64))) := by
  refine Vector.ext fun j hj => ?_
  have hread := holds_writeByte_read hwf h x (j := BitVec.ofNat 6 j) (by bv_omega)
  rw [BitVec.toNat_ofNat, Nat.mod_eq_of_lt hj] at hread
  simp only [memBlock, blockOf, Vector.getElem_ofFn, hread, List.getD_eq_getElem?_getD, List.getElem?_drop]

theorem cnt_writeByte_of_holds {a : Arch} {m : List Byte} (h : a.holds m) (x : Byte) :
    (a.writeByte x).cnt = BitVec.ofNat 64 (m ++ [x]).length := by
  rw [cnt_writeByte, holds_cnt h, List.length_append, List.length_singleton, BitVec.ofNat_add]
  rfl

/-- The byte of an UPDATE that fills no block (41_update.md R131). -/
theorem holds_absorb_of_ne {a : Arch} {m : List Byte} (hwf : a.buf.wf = true) (h : a.holds m) (x : Byte)
    (hused : a.used ≠ 63) : (a.absorb x).holds (m ++ [x]) := by
  have hopen : m.length % 64 ≠ 63 := by rw [← holds_used h]; bv_omega
  have hq : (m ++ [x]).length / 64 = m.length / 64 := by rw [List.length_append, List.length_singleton]; omega
  rw [Arch.absorb, if_neg hused]
  refine ⟨cnt_writeByte_of_holds h x, ?_, fun j hj => ?_⟩
  · rw [writeByte_h, holds_h h, blocks_concat_of_ne x hopen]
  · rw [used_writeByte] at hj
    rw [hq]
    exact holds_writeByte_read hwf h x (by bv_omega)

/-- The byte of an UPDATE that fills a block: no byte of the buffer is valid after its COMPRESS. -/
theorem holds_absorb_of_eq {a : Arch} {m : List Byte} (hwf : a.buf.wf = true) (h : a.holds m) (x : Byte)
    (hused : a.used = 63) : (a.absorb x).holds (m ++ [x]) := by
  have hfull : m.length % 64 = 63 := by rw [← holds_used h, hused]; rfl
  have hempty : (a.writeByte x).compressBuf.used = 0 := by
    rw [used_congr (compressBuf_cntLo _), used_writeByte, hused]; rfl
  rw [Arch.absorb, if_pos hused]
  refine ⟨(cnt_compressBuf _).trans (cnt_writeByte_of_holds h x), ?_, fun j hj => ?_⟩
  · rw [compressBuf_h, writeByte_h, holds_h h, holds_memBlock hwf h hused, blocks_concat_of_eq x hfull,
      List.foldl_append, List.foldl_cons, List.foldl_nil]
  · rw [hempty] at hj
    exact absurd hj (by bv_omega)

theorem holds_absorb {a : Arch} {m : List Byte} (hwf : a.buf.wf = true) (h : a.holds m) (x : Byte) :
    (a.absorb x).holds (m ++ [x]) := by
  by_cases hused : a.used = 63
  · exact holds_absorb_of_eq hwf h x hused
  · exact holds_absorb_of_ne hwf h x hused

theorem phase_absorb (a : Arch) (x : Byte) : (a.absorb x).phase = a.phase := by
  rw [Arch.absorb]
  split
  · rw [compressBuf_phase, writeByte_phase]
  · exact writeByte_phase a x

theorem wf_absorb {a : Arch} (h : a.buf.wf = true) (x : Byte) : (a.absorb x).buf.wf = true := by
  rw [Arch.absorb]
  split
  · rw [compressBuf_buf]
    exact wf_writeByte h x
  · exact wf_writeByte h x

theorem holds_reset : Arch.reset.holds [] := ⟨rfl, rfl, fun _ _ => rfl⟩

theorem opField_append (op : BitVec 2) (x : Byte) : opField (op ++ x) = op :=
  BitVec.extractLsb'_append_eq_left

theorem dataField_append (op : BitVec 2) (x : Byte) : dataField (op ++ x) = x :=
  BitVec.extractLsb'_append_eq_right

theorem transact_updateWord (a : Arch) (x : Byte) : a.transact (0b01#2 ++ x) = a.update x := by
  have hop : opField (0b01#2 ++ x) = 1 := opField_append _ x
  rw [transact_of_update hop, dataField_append]

theorem transactAll_updateWords (a : Arch) (m : List Byte) : a.transactAll (updateWords m) = a.updateN m := by
  simp only [Arch.transactAll, updateWords, Arch.updateN, List.foldl_map, transact_updateWord]

theorem updateN_concat (a : Arch) (m : List Byte) (x : Byte) : a.updateN (m ++ [x]) = (a.updateN m).update x := by
  rw [Arch.updateN, List.foldl_append]
  rfl

/-- The step of the buffer invariant. -/
theorem holds_update {a : Arch} {m : List Byte} (hwf : a.buf.wf = true) (hphase : a.phase = .absorb) (h : a.holds m)
    (x : Byte) : (a.update x).holds (m ++ [x]) ∧ (a.update x).phase = .absorb ∧ (a.update x).buf.wf = true := by
  rw [update_of_absorb hphase]
  exact ⟨holds_absorb hwf h x, (phase_absorb a x).trans hphase, wf_absorb hwf x⟩

/-- The buffer invariant of every message, by induction from its end. -/
theorem holds_updateN (m : List Byte) : (Arch.reset.updateN m).holds m ∧
    (Arch.reset.updateN m).phase = .absorb ∧ (Arch.reset.updateN m).buf.wf = true := by
  induction m using List.reverseRecOn with
  | nil => exact ⟨holds_reset, rfl, rfl⟩
  | append_singleton m x ih =>
    obtain ⟨hholds, hphase, hwf⟩ := ih
    rw [updateN_concat]
    exact holds_update hwf hphase hholds x

/-- Settles O45: the step `holds_update`, and its induction over the message `holds_updateN`. -/
theorem bufferInvariantOfAMessage : Obligations.BufferInvariantOfAMessage := by
  refine ⟨fun a m x hwf hphase h => holds_update hwf hphase h x, fun m => ?_⟩
  obtain ⟨hholds, hphase, -⟩ := holds_updateN m
  rw [transactAll_updateWords]
  exact ⟨hholds, hphase⟩

end Sys2Proof.Machine

namespace Sys2Proof.Machine

/-! ### Word accesses of the buffer -/

/-- A byte placed above the bits in use joins the word by `|||` as it would by `+`. -/
theorem toNat_or_byte {lo : Word} {i : Nat} (hlo : lo.toNat < 2 ^ i) (hi : i ≤ 24) (b : Byte) :
    (lo ||| (b.setWidth 32 <<< i)).toNat = lo.toNat + 2 ^ i * b.toNat := by
  have hshift : (b.setWidth 32 <<< i).toNat = 2 ^ i * b.toNat := by
    have hbound : 2 ^ i * b.toNat < 2 ^ 32 := calc
      2 ^ i * b.toNat < 2 ^ i * 2 ^ 8 := Nat.mul_lt_mul_of_pos_left b.isLt (Nat.two_pow_pos i)
      _ = 2 ^ (i + 8) := (Nat.pow_add 2 i 8).symm
      _ ≤ 2 ^ 32 := Nat.pow_le_pow_right (by decide) (by omega)
    rw [BitVec.toNat_shiftLeft, BitVec.toNat_setWidth_of_le (by decide), Nat.shiftLeft_eq, Nat.mul_comm,
      Nat.mod_eq_of_lt hbound]
  rw [BitVec.toNat_or, hshift, Nat.or_comm, ← Nat.two_pow_add_eq_or_of_lt hlo, Nat.add_comm]

/-- The bytes of a word are the digits of its value to base 256, least significant first (00_scope.md R9). -/
theorem toNat_le32Word (b0 b1 b2 b3 : Byte) : (le32Word b0 b1 b2 b3).toNat =
    b0.toNat + 2 ^ 8 * b1.toNat + 2 ^ 16 * b2.toNat + 2 ^ 24 * b3.toNat := by
  have hb0 := b0.isLt
  have hb1 := b1.isLt
  have hb2 := b2.isLt
  have h0 : (b0.setWidth 32).toNat = b0.toNat := BitVec.toNat_setWidth_of_le (by decide)
  have h1 := toNat_or_byte (i := 8) (by omega : (b0.setWidth 32).toNat < 2 ^ 8) (by decide) b1
  have h2 := toNat_or_byte (i := 16) (by omega : (b0.setWidth 32 ||| b1.setWidth 32 <<< 8).toNat < 2 ^ 16)
    (by decide) b2
  rw [le32Word, toNat_or_byte (by omega) (by decide), h2, h1, h0]

/-- A byte of a word, read after the word was written (20_memory.md R64, R65). -/
theorem memRead1_wordAddr_memWrite4 {m : Memory} (h : m.wf = true) (k : BitVec 4) (v : Word) {j : Nat} (hj : j < 4) :
    memRead1 (memWrite4 m k v) (wordAddr k j) = le32Byte v j := by
  have haddr := wordAddr_toNat k hj
  have hmod : (wordAddr k j).toNat % 4 = j := by omega
  rw [memRead1_memWrite4 h, if_pos (by omega), hmod]

/-- A word read after it was written (20_memory.md R63 to R65). -/
theorem memRead4_memWrite4 {m : Memory} (h : m.wf = true) (k : BitVec 4) (v : Word) :
    memRead4 (memWrite4 m k v) k = v := by
  rw [memRead4, memRead1_wordAddr_memWrite4 h k v (by decide : 0 < 4),
    memRead1_wordAddr_memWrite4 h k v (by decide : 1 < 4), memRead1_wordAddr_memWrite4 h k v (by decide : 2 < 4),
    memRead1_wordAddr_memWrite4 h k v (by decide : 3 < 4), le32Word_le32Byte]

/-- Settles O55: the laws of the byte and the word write, one for each clause. -/
theorem bufferReadAfterWrite : Obligations.BufferReadAfterWrite := by
  intro m hm
  exact ⟨fun a j x => memRead1_memWrite1 hm a x j, fun k v j => memRead1_memWrite4 hm k v j,
    memRead4_memWrite4 hm, wf_memWrite1 hm, wf_memWrite4 hm, fun _ => toNat_le32Word _ _ _ _⟩

end Sys2Proof.Machine

namespace Sys2Proof.Machine

/-! ### The decoder and the encoder -/

theorem decodeCmd_of_reset {c : BitVec 10} (hop : opField c = 0) : decodeCmd c = .reset (dataField c) := by
  rw [decodeCmd, hop]; rfl

theorem decodeCmd_of_update {c : BitVec 10} (hop : opField c = 1) : decodeCmd c = .update (dataField c) := by
  rw [decodeCmd, hop]; rfl

theorem decodeCmd_of_finalize {c : BitVec 10} (hop : opField c = 2) : decodeCmd c = .finalize (dataField c) := by
  rw [decodeCmd, hop]; rfl

theorem decodeCmd_of_rsvd {c : BitVec 10} (hop : opField c = 3) : decodeCmd c = .rsvd (dataField c) := by
  rw [decodeCmd, hop]; rfl

theorem opField_append_dataField (c : BitVec 10) : opField c ++ dataField c = c :=
  BitVec.extractLsb'_append_extractLsb' (w := 2) (len := 8)

/-- A command word is the word of the command it decodes to. -/
theorem encode_decodeCmd (c : BitVec 10) : encode (decodeCmd c) = .cmd c := by
  have hc : ∀ {op : BitVec 2}, opField c = op → cmdWord op (dataField c) = .cmd c := by
    rintro op rfl
    rw [cmdWord, opField_append_dataField]
  rcases opField_cases c with hop | hop | hop | hop
  · rw [decodeCmd_of_reset hop]; exact hc hop
  · rw [decodeCmd_of_update hop]; exact hc hop
  · rw [decodeCmd_of_finalize hop]; exact hc hop
  · rw [decodeCmd_of_rsvd hop]; exact hc hop

/-- The encoder's words decode to what was encoded: the fields of a command word are read back, and each transition
stands in `seqTable` at its value of STEP. -/
theorem decode_encode (i : Instr) : decode (encode i) = .ok i := by
  cases i with
  | reset d => rw [encode, cmdWord, decode, decodeCmd_of_reset (opField_append 0 d), dataField_append]
  | update d => rw [encode, cmdWord, decode, decodeCmd_of_update (opField_append 1 d), dataField_append]
  | finalize d => rw [encode, cmdWord, decode, decodeCmd_of_finalize (opField_append 2 d), dataField_append]
  | rsvd d => rw [encode, cmdWord, decode, decodeCmd_of_rsvd (opField_append 3 d), dataField_append]
  | _ => rfl

theorem eq_encode_of_decode {w : CodeWord} {i : Instr} (h : decode w = .ok i) : w = encode i := by
  cases w with
  | cmd c =>
    cases h
    exact (encode_decodeCmd c).symm
  | seq v => exact (encode_of_decodeSeq v i h).symm

theorem decode_eq_ok_iff (w : CodeWord) (i : Instr) : decode w = .ok i ↔ w = encode i :=
  ⟨eq_encode_of_decode, fun h => h ▸ decode_encode i⟩

theorem decodeSeq_eq_error_iff (v : BitVec 7) (r : Reject) :
    decodeSeq v = .error r ↔ 64 < v.toNat ∧ r = .stepOutOfRange v := by
  constructor
  · intro h
    have hgt : 64 < v.toNat := by
      by_contra hle
      obtain ⟨i, hi⟩ := decodeSeq_ok v (Nat.le_of_not_lt hle)
      rw [hi] at h
      cases h
    rw [decodeSeq_error v hgt] at h
    cases h
    exact ⟨hgt, rfl⟩
  · rintro ⟨hgt, rfl⟩
    exact decodeSeq_error v hgt

/-- Settles O1: the encoder inverts the decoder on both code spaces, and a command word always decodes. -/
theorem decodeIsTheInverseOfEncode : Obligations.DecodeIsTheInverseOfEncode :=
  ⟨decode_eq_ok_iff, decodeSeq_eq_error_iff, fun _ _ h => nomatch h⟩

/-! ### The rows of the opcode table -/

theorem matchesRow_iff (w : CodeWord) (r : Row) :
    w.matchesRow r = true ↔ w.width = r.width ∧ w.toNat &&& r.mask = r.pattern := by
  rw [CodeWord.matchesRow, Bool.and_eq_true, beq_iff_eq, beq_iff_eq]

theorem encode_matchesRow (i : Instr) : (encode i).matchesRow i.row = true := by
  cases i with
  | reset d => exact Laws.TableMatch.reset d
  | update d => exact Laws.TableMatch.update d
  | finalize d => exact Laws.TableMatch.finalize d
  | rsvd d => exact Laws.TableMatch.rsvd d
  | _ => rfl

/-- The rows of one code space have one mask. -/
theorem row_mask (i : Instr) : i.row.mask = if i.row.width = 10 then 0x300 else 0x7f := by
  cases i <;> rfl

/-- The width of a word fixes the mask of its row, and the mask fixes the pattern. -/
theorem row_eq_of_matchesRow {w : CodeWord} {i j : Instr} (hi : w.matchesRow i.row = true)
    (hj : w.matchesRow j.row = true) : i.row = j.row := by
  obtain ⟨hwi, hpi⟩ := (matchesRow_iff w i.row).mp hi
  obtain ⟨hwj, hpj⟩ := (matchesRow_iff w j.row).mp hj
  have hwidth : i.row.width = j.row.width := hwi.symm.trans hwj
  have hmask : i.row.mask = j.row.mask := by rw [row_mask, row_mask, hwidth]
  have hpattern : i.row.pattern = j.row.pattern := by rw [← hpi, ← hpj, hmask]
  show Row.mk i.row.width i.row.pattern i.row.mask = Row.mk j.row.width j.row.pattern j.row.mask
  rw [hwidth, hpattern, hmask]

theorem seq_matchesRow_iff (v : BitVec 7) (i : Instr) :
    (CodeWord.seq v).matchesRow i.row = true ↔ i.row.width = 7 ∧ i.row.pattern = v.toNat := by
  have hand : v.toNat &&& 0x7f = v.toNat := by
    rw [Nat.and_two_pow_sub_one_eq_mod v.toNat 7, Nat.mod_eq_of_lt v.isLt]
  rw [matchesRow_iff, row_mask]
  constructor
  · rintro ⟨hwidth, hpattern⟩
    have h7 : i.row.width = 7 := hwidth.symm
    rw [h7] at hpattern
    exact ⟨h7, hpattern.symm.trans hand⟩
  · rintro ⟨h7, hpattern⟩
    rw [h7, hpattern]
    exact ⟨rfl, hand⟩

/-- A row of STEP has no operand: the word that matches it is the word of its instruction. -/
theorem seq_eq_encode_of_matchesRow {v : BitVec 7} {i : Instr} (h : (CodeWord.seq v).matchesRow i.row = true) :
    CodeWord.seq v = encode i := by
  obtain ⟨h7, hv⟩ := (seq_matchesRow_iff v i).mp h
  have henc := encode_matchesRow i
  cases hi : encode i with
  | cmd c =>
    obtain ⟨hwidth, -⟩ := (matchesRow_iff _ _).mp (hi ▸ henc)
    rw [h7] at hwidth
    cases hwidth
  | seq u =>
    obtain ⟨-, hu⟩ := (seq_matchesRow_iff u i).mp (hi ▸ henc)
    rw [BitVec.eq_of_toNat_eq (hv.symm.trans hu)]

theorem matchesRow_of_decode {w : CodeWord} {i : Instr} (h : decode w = .ok i) : w.matchesRow i.row = true := by
  rw [eq_encode_of_decode h]
  exact encode_matchesRow i

theorem decode_of_matchesRow {w : CodeWord} {i : Instr} (h : w.matchesRow i.row = true) : ∃ j, decode w = .ok j := by
  cases w with
  | cmd c => exact ⟨decodeCmd c, rfl⟩
  | seq v => exact ⟨i, (decode_eq_ok_iff _ _).mpr (seq_eq_encode_of_matchesRow h)⟩

/-- Settles O2: a word that matches a row decodes, and the row of its instruction is the only one it matches. -/
theorem decodedInstructionMatchesOneRow : Obligations.DecodedInstructionMatchesOneRow := by
  refine ⟨fun _ _ => matchesRow_of_decode, fun w i => ⟨fun h => ?_, ?_⟩, fun _ _ _ => row_eq_of_matchesRow, ?_⟩
  · obtain ⟨j, hj⟩ := decode_of_matchesRow h
    exact ⟨j, hj, row_eq_of_matchesRow (matchesRow_of_decode hj) h⟩
  · rintro ⟨j, hj, hrow⟩
    rw [← hrow]
    exact matchesRow_of_decode hj
  · intro c i h
    cases h
    rcases opField_cases c with hop | hop | hop | hop
    · exact .inl (decodeCmd_of_reset hop)
    · exact .inr (.inl (decodeCmd_of_update hop))
    · exact .inr (.inr (.inl (decodeCmd_of_finalize hop)))
    · exact .inr (.inr (.inr (decodeCmd_of_rsvd hop)))

/-! ### Command words under the opcode mask -/

/-- The mask 0x300 keeps the field `op`. -/
theorem opField_and_mask (c : BitVec 10) : opField (c &&& 0x300) = opField c := by
  have hmask : (0x300 : BitVec 10).extractLsb' 8 2 = BitVec.allOnes 2 := rfl
  rw [opField, BitVec.extractLsb'_and, hmask, BitVec.and_allOnes, opField]

theorem exec_ignores_data (s : State) (d d' : Byte) : exec (.reset d) s = exec (.reset d') s ∧
    exec (.finalize d) s = exec (.finalize d') s ∧ exec (.rsvd d) s = exec (.rsvd d') s :=
  ⟨rfl, rfl, rfl⟩

/-- Settles O3: a word's bits under the mask are those of its field `op`. -/
theorem commandWordSelectedByOpField : Obligations.CommandWordSelectedByOpField := by
  intro c
  have hop {p : BitVec 10} (h : c &&& 0x300 = p) : opField c = opField p := by rw [← h, opField_and_mask]
  exact ⟨fun h => congrArg _ (decodeCmd_of_reset (hop h)), fun h => congrArg _ (decodeCmd_of_update (hop h)),
    fun h => congrArg _ (decodeCmd_of_finalize (hop h)), fun h => congrArg _ (decodeCmd_of_rsvd (hop h)),
    exec_ignores_data⟩

/-- Settles O4: each word is the encoding of its instruction. -/
theorem writtenOutWordsDecode : Obligations.WrittenOutWordsDecode :=
  ⟨decode_encode (.reset 0), decode_encode (.update 0x61), decode_encode (.finalize 0), decode_encode (.finalize 0xa5),
    decode_encode (.rsvd 0xa5), decode_encode .step0, decode_encode .step16, decode_encode .step32,
    decode_encode .step63, decode_encode .feedfwd⟩

/-- Settles O14: none of the three meanings reads its data field. -/
theorem dataFieldIsIgnored : Obligations.DataFieldIsIgnored := exec_ignores_data

/-! ### Edges by what is sampled -/

theorem sample_of_inputs {s : State} {p : PortIn} {rest : List PortIn} (h : s.inputs = p :: rest) : s.sample = p := by
  rw [State.sample, h, List.headD_cons]

theorem sampled_of_inputs {s : State} {p : PortIn} {rest : List PortIn} (h : s.inputs = p :: rest) :
    s.sampled = { s with inputs := rest } := by
  rw [State.sampled, h, List.tail_cons]

theorem step_of_offer {s : State} {c : BitVec 10} {rest : List PortIn} (hi : s.activity = .idle)
    (hin : s.inputs = PortIn.offer c :: rest) : step s = exec (decodeCmd c) { s with inputs := rest } := by
  have hs := sample_of_inputs hin
  rw [step_of_command (by rw [hs]; rfl) hi (by rw [hs]; rfl), hs, sampled_of_inputs hin]
  rfl

theorem step_of_decodeSeq_error {s : State} {r : Reject} (hr : s.sample.rst = false) (hc : s.compressing = true)
    (hd : decodeSeq s.stepReg = .error r) : step s = .fault .stepOutOfRange := by
  rw [step, event_of_compressing hr hc]
  simp only [decode, hd]

theorem step_withCode {s : State} {w : CodeWord} {i : Instr} (h : decode w = .ok i) :
    step (s.withCode w) = exec i { s.withCode w with inputs := s.inputs } := by
  cases w with
  | cmd c =>
    cases h
    exact step_of_offer rfl rfl
  | seq v => exact step_of_compressing (s := s.withCode (.seq v)) rfl rfl h

theorem decode_of_decodeTableWord {nbits w : Nat} {i : Instr} (h : decodeTableWord nbits w = some i) :
    decode (tableWord nbits w) = .ok i := by
  rw [decodeTableWord] at h
  split at h
  next j hj => rw [hj, Option.some.inj h]
  next => cases h

/-- Settles O5, over the events of an edge. -/
theorem stepRunsTheDecodedInstruction : Obligations.StepRunsTheDecodedInstruction := by
  refine ⟨fun s c rest i hi hin hd => ?_, fun s i hc hr => step_of_compressing hr hc,
    fun s r hc hr => step_of_decodeSeq_error hr hc, fun s hi hr => step_of_hold hr hi, fun s nbits w i h => ?_⟩
  · cases hd
    exact step_of_offer hi hin
  · exact step_withCode (decode_of_decodeTableWord h)

/-- Settles O7: an edge with `rst = 1` and RESET both leave the architectural state `Arch.reset`. -/
theorem resetPinDominates : Obligations.ResetPinDominates := by
  intro s v c rest hin
  have hr : s.sample.rst = true := by rw [sample_of_inputs hin]
  refine ⟨s.sampled.toReset, step_of_rst hr, ⟨rfl, rfl, rfl, memRead1_nil, rfl, rfl, rfl⟩, rfl, ?_, fun d u hu => ?_⟩
  · rw [toReset_inputs, sampled_inputs, hin, List.tail_cons]
  · cases hu
    rfl

/-- A busy engine reads `rst` and nothing else of its sample (30_encoding.md R91). -/
theorem event_congr_of_busy {s t : State} (hb : s.activity ≠ .idle) (hr : s.sample.rst = t.sample.rst)
    (ha : s.activity = t.activity) (hstep : s.stepReg = t.stepReg) : s.event = t.event := by
  rw [State.event, State.event, hr, ← ha, hstep]
  cases h : s.activity with
  | idle => exact absurd h hb
  | _ => rfl

theorem step_congr {s t : State} (hevent : s.event = t.event) (hsampled : s.sampled = t.sampled) :
    step s = step t := by
  rw [step, step, hevent, hsampled]

theorem ready_iff (s : State) : s.ready = true ↔ s.activity = .idle := by
  rw [State.ready, beq_iff_eq]

theorem ready_eq_false_iff (s : State) : s.ready = false ↔ s.activity ≠ .idle := by
  rw [State.ready, beq_eq_false_iff_ne]

/-- Settles O41: with the same `rst` a busy engine has the same event, on the same state. -/
theorem offerWhileBusyHasNoEffect : Obligations.OfferWhileBusyHasNoEffect := by
  intro s v c rest hready hin
  refine step_congr (event_congr_of_busy ((ready_eq_false_iff s).mp hready) ?_ rfl rfl) ?_
  · rw [sample_of_inputs hin]
    rfl
  · rw [sampled_of_inputs hin]
    rfl

/-! ### The output ports -/

theorem phase_bit_iff (p : Phase) : p.bit = true ↔ p = .done := by
  cases p <;> decide

/-- Settles O58, by whether a command is in progress. -/
theorem outputsWhileReadyAndBusy : Obligations.OutputsWhileReadyAndBusy := by
  intro s
  refine ⟨ready_iff s, rfl, ?_, fun hi => ?_, fun hb => ?_⟩
  · cases hc : s.arch.cause <;> simp only [State.outputs, hc, Cause.code]
  · have hready := (ready_iff s).mpr hi
    simp only [State.outputs, hready, Bool.true_and, phase_bit_iff, if_true, and_self]
  · have hready := (ready_eq_false_iff s).mpr hb
    simp only [State.outputs, hready, Bool.false_and, Bool.false_eq_true, if_false, and_self]

/-- A byte of a word that is itself read off a longer number. -/
theorem le32Byte_extractLsb' {n : Nat} (x : BitVec n) (i : Nat) {j : Nat} (hj : j < 4) :
    le32Byte (x.extractLsb' i 32) j = x.extractLsb' (i + 8 * j) 8 := by
  ext b hb
  have hin : 8 * j + b < 32 := by omega
  rw [le32Byte, BitVec.getElem_extractLsb', BitVec.getLsbD_extractLsb', BitVec.getElem_extractLsb', Nat.add_assoc,
    decide_eq_true hin, Bool.true_and]

/-- The serialiser's order: byte `t` of word `j` stands at `4j + t` (44_finalize.md R280). -/
theorem serialise_getElem? (h : Chain) {j t : Nat} (hj : j < 4) (ht : t < 4) :
    (serialise h)[4 * j + t]? = some (le32Byte ([h.A, h.B, h.C, h.D].getD j 0) t) := by
  interval_cases j <;> interval_cases t <;> rfl

/-- The port puts the four bytes of a word below what follows them. -/
theorem packBytes_le32Bytes_append (v : Word) (rest : List Byte) :
    packBytes (le32Bytes v ++ rest) = v.toNat + 2 ^ 32 * packBytes rest := by
  have hv := toNat_le32Word (le32Byte v 0) (le32Byte v 1) (le32Byte v 2) (le32Byte v 3)
  rw [le32Word_le32Byte] at hv
  rw [hv, le32Bytes]
  simp only [List.cons_append, List.nil_append, packBytes]
  ring

/-- The chaining words as one number, `D` on top: `digest` of 30_encoding.md R101. -/
def Chain.number (h : Chain) : BitVec 128 := h.D ++ h.C ++ h.B ++ h.A

theorem number_toNat (h : Chain) : h.number.toNat =
    h.A.toNat + 2 ^ 32 * (h.B.toNat + 2 ^ 32 * (h.C.toNat + 2 ^ 32 * h.D.toNat)) := by
  have hjoin {n : Nat} (x : BitVec n) (lo : Word) : (x ++ lo).toNat = lo.toNat + 2 ^ 32 * x.toNat := by
    rw [BitVec.toNat_append, Nat.shiftLeft_eq, Nat.mul_comm, ← Nat.two_pow_add_eq_or_of_lt lo.isLt, Nat.add_comm]
  rw [Chain.number, hjoin, hjoin, hjoin]

theorem packBytes_serialise (h : Chain) : packBytes (serialise h) = h.number.toNat := by
  have hD := packBytes_le32Bytes_append h.D []
  rw [List.append_nil] at hD
  rw [serialise, List.append_assoc, List.append_assoc, packBytes_le32Bytes_append, packBytes_le32Bytes_append,
    packBytes_le32Bytes_append, hD, number_toNat]
  rfl

/-- Word `j` of the number. -/
theorem number_word (h : Chain) {j : Nat} (hj : j < 4) :
    h.number.extractLsb' (32 * j) 32 = [h.A, h.B, h.C, h.D].getD j 0 := by
  refine BitVec.eq_of_toNat_eq ?_
  have hA := h.A.isLt
  have hB := h.B.isLt
  have hC := h.C.isLt
  have hD := h.D.isLt
  rw [BitVec.extractLsb'_toNat, Nat.shiftRight_eq_div_pow, number_toNat]
  interval_cases j
  all_goals simp only [List.getD_cons_zero, List.getD_cons_succ]; omega

/-- Settles O57: the bytes are those of the words, the words those of the number, and packing the bytes gives the
number back. -/
theorem digestPortIsTheSerialisedWords : Obligations.DigestPortIsTheSerialisedWords := by
  intro s
  refine ⟨rfl, fun j hj t ht => serialise_getElem? s.arch.h hj ht, fun k hk => ?_, fun hready => ?_⟩
  · have hk4 : 4 * (k / 4) + k % 4 = k := Nat.div_add_mod k 4
    have hj : k / 4 < 4 := by omega
    have hbyte := serialise_getElem? s.arch.h hj (Nat.mod_lt k (by decide))
    have hbit : 32 * (k / 4) + 8 * (k % 4) = 8 * k := by omega
    rw [hk4, ← number_word _ hj, le32Byte_extractLsb' _ _ (Nat.mod_lt k (by decide)), hbit] at hbyte
    exact hbyte
  · simp only [State.outputs, hready, if_true, packBytes_serialise, BitVec.ofNat_toNat, BitVec.setWidth_eq, Chain.number]

/-! ### Padding -/

theorem length_takeBlocks (n : Nat) (l : List Byte) : (takeBlocks n l).length = n := by
  induction n generalizing l with
  | zero => rfl
  | succ n ih => rw [takeBlocks, List.length_cons, ih]

theorem length_blocks (l : List Byte) : (blocks l).length = l.length / 64 := length_takeBlocks _ l

/-- The bytes of a length, read off it. -/
theorem le64Bytes_eq_map (l : BitVec 64) :
    le64Bytes l = (List.range 8).map fun k => l.extractLsb' (8 * k) 8 := by
  simp only [le64Bytes, le32Bytes, le32Byte_extractLsb' l _ (by decide : 0 < 4),
    le32Byte_extractLsb' l _ (by decide : 1 < 4), le32Byte_extractLsb' l _ (by decide : 2 < 4),
    le32Byte_extractLsb' l _ (by decide : 3 < 4)]
  rfl

/-- The number of zero bytes of the padding of `n` bytes (30_encoding.md R99). -/
def zeroBytes (n : Nat) : Nat := (119 - n % 64) % 64

theorem pad_eq (m : List Byte) : pad m = m ++ [0x80] ++ List.replicate (zeroBytes m.length) 0x00 ++
    (List.range 8).map (fun k => (BitVec.ofNat 64 (8 * m.length)).extractLsb' (8 * k) 8) := by
  rw [pad, le64Bytes_eq_map, zeroBytes]

theorem length_pad (m : List Byte) : (pad m).length = m.length + 1 + zeroBytes m.length + 8 := by
  rw [pad_eq, List.length_append, List.length_append, List.length_append, List.length_replicate, List.length_map,
    List.length_range, List.length_singleton]

/-- Settles O50: the parts are `pad_eq`, and the counts are arithmetic mod 64 on the length. -/
theorem paddedMessageLength : Obligations.PaddedMessageLength := by
  intro m
  have hz : zeroBytes m.length = (119 - m.length % 64) % 64 := rfl
  have hlen := length_pad m
  refine ⟨zeroBytes m.length, by omega, by omega, pad_eq m, by omega, fun y hy => by omega, ?_⟩
  rw [length_blocks, hlen]
  split <;> omega

end Sys2Proof.Machine

namespace Sys2Proof.Machine

/-! ### The RESET command -/

/-- RESET checks nothing and cannot fail (40_reset.md R120). -/
theorem exec_reset (d : Byte) (s : State) : exec (.reset d) s = .next s.toReset := rfl

/-- Settles O6: RESET answers `s.toReset`, and the words with op 0b00 are RESET by the first clause of O3. -/
theorem resetCommandReinitialises : Obligations.ResetCommandReinitialises := by
  refine ⟨fun s d => ⟨s.toReset, exec_reset d s, ?_, (ready_iff _).mpr (toReset_activity s), toReset_inputs s⟩,
    fun c hc => ?_⟩
  · rw [toReset_arch]
    exact ⟨rfl, rfl, rfl, memRead1_nil, rfl, rfl, rfl⟩
  · obtain ⟨hreset, -⟩ := commandWordSelectedByOpField c
    exact hreset hc

end Sys2Proof.Machine

namespace Sys2Proof.Machine

/-! ### The UPDATE command -/

theorem exec_update (x : Byte) (s : State) : exec (.update x) s = execUpdate x s := rfl

theorem exec_update_of_ne {s : State} (hphase : s.arch.phase = .absorb) (hused : s.arch.used ≠ 63) (x : Byte) :
    exec (.update x) s = .next (s.mapArch (·.writeByte x)) := by
  simp only [exec_update, execUpdate, hphase, if_neg hused]

theorem exec_update_of_eq {s : State} (hphase : s.arch.phase = .absorb) (hused : s.arch.used = 63) (x : Byte) :
    exec (.update x) s = .next ((s.mapArch (·.writeByte x)).startCompress .compU) := by
  simp only [exec_update, execUpdate, hphase, if_pos hused]

/-- Settles O9: the answer is the byte write of `exec_update_of_ne`. -/
theorem updateBelow63WritesOneByte : Obligations.UpdateBelow63WritesOneByte := by
  intro s x hwf hphase hused
  exact ⟨_, exec_update_of_ne hphase hused x, memRead1_writeByte hwf x, cnt_writeByte s.arch x, rfl⟩

/-- Settles O10: the answer is the byte write and the load of `exec_update_of_eq`. -/
theorem updateOfByte63BeginsCompress : Obligations.UpdateOfByte63BeginsCompress := by
  intro s x hwf hphase hused
  exact ⟨_, exec_update_of_eq hphase hused x, hused ▸ memRead1_writeByte hwf x, cnt_writeByte s.arch x, rfl, rfl⟩

end Sys2Proof.Machine

namespace Sys2Proof.Machine

/-! ### Counting several bytes -/

/-- Step 1 of the slice-level update (41_update.md R132): `CNT <- add64(CNT, n mod 2^64)`. -/
def Arch.count (a : Arch) (n : Nat) : Arch := a.addCnt (BitVec.ofNat 32 n) (BitVec.ofNat 32 (n / 2 ^ 32))

theorem cnt_inj {a b : Arch} (h : a.cnt = b.cnt) : a.cntLo = b.cntLo ∧ a.cntHi = b.cntHi := by
  have hnat := congrArg BitVec.toNat h
  rw [Arch.cnt, Arch.cnt, toNat_append_word, toNat_append_word] at hnat
  exact ⟨BitVec.eq_of_toNat_eq (by omega), BitVec.eq_of_toNat_eq (by omega)⟩

theorem ofNat_append_word (n : Nat) :
    (BitVec.ofNat 32 (n / 2 ^ 32) ++ BitVec.ofNat 32 n : BitVec 64) = BitVec.ofNat 64 n := by
  apply BitVec.eq_of_toNat_eq
  rw [toNat_append_word, BitVec.toNat_ofNat, BitVec.toNat_ofNat, BitVec.toNat_ofNat]
  omega

theorem cnt_count (a : Arch) (n : Nat) : (a.count n).cnt = a.cnt + BitVec.ofNat 64 n := by
  obtain ⟨-, -, hcnt⟩ := counterHalvesAddModulo64 a (BitVec.ofNat 32 n) (BitVec.ofNat 32 (n / 2 ^ 32))
  rw [Arch.count, hcnt, ofNat_append_word]

/-- The halves of the counter are determined by its value. -/
theorem with_cnt_congr (a : Arch) {b c : Arch} (h : b.cnt = c.cnt) :
    ({ a with cntLo := b.cntLo, cntHi := b.cntHi } : Arch) = { a with cntLo := c.cntLo, cntHi := c.cntHi } := by
  obtain ⟨hlo, hhi⟩ := cnt_inj h
  rw [hlo, hhi]

theorem count_zero (a : Arch) : a.count 0 = a :=
  with_cnt_congr a (b := a.count 0) (c := a) (by rw [cnt_count, BitVec.add_zero])

theorem count_count (a : Arch) (m n : Nat) : (a.count m).count n = a.count (m + n) :=
  with_cnt_congr a (b := (a.count m).count n) (c := a.count (m + n)) (by
    rw [cnt_count, cnt_count, cnt_count, BitVec.ofNat_add, BitVec.add_assoc])

theorem toNat_used_count (a : Arch) (n : Nat) : (a.count n).used.toNat = (a.used.toNat + n) % 64 := by
  rw [toNat_used_eq_cnt_mod, toNat_used_eq_cnt_mod, cnt_count, BitVec.toNat_add, BitVec.toNat_ofNat]
  omega

/-! ### Copying several bytes into the buffer -/

theorem copyIn_concat (m : Memory) (i : Nat) (l : List Byte) (x : Byte) :
    copyIn m i (l ++ [x]) = memWrite1 (copyIn m i l) (BitVec.ofNat 6 (i + l.length)) x := by
  induction l generalizing m i with
  | nil => rfl
  | cons y l ih => rw [List.cons_append, copyIn, ih, copyIn, List.length_cons, Nat.add_assoc, Nat.add_comm 1]

theorem wf_copyIn {m : Memory} (h : m.wf = true) (i : Nat) (l : List Byte) : (copyIn m i l).wf = true := by
  induction l generalizing m i with
  | nil => exact h
  | cons x l ih => exact ih (wf_memWrite1 h _ x) _

/-- A read of a buffer into whose front `l` was copied. -/
theorem memRead1_copyIn {m : Memory} (h : m.wf = true) {l : List Byte} (hl : l.length ≤ 64) {j : BitVec 6}
    (hj : j.toNat < l.length) : memRead1 (copyIn m 0 l) j = l.getD j.toNat 0 := by
  induction l using List.reverseRecOn with
  | nil => exact absurd hj (Nat.not_lt_zero _)
  | append_singleton l x ih =>
    rw [List.length_append, List.length_singleton] at hl hj
    rw [copyIn_concat, memRead1_memWrite1 (wf_copyIn h 0 l), Nat.zero_add]
    by_cases hlast : j.toNat = l.length
    · rw [if_pos (by bv_omega), hlast]
      simp
    · rw [if_neg (by bv_omega), ih (by omega) (by omega), List.getD_append _ _ _ _ (by omega)]

/-- A block copied into the buffer is the block the direct path hands to `compress` (41_update.md R135). -/
theorem memBlock_copyIn_take {m : Memory} (h : m.wf = true) {l : List Byte} (hl : 64 ≤ l.length) :
    memBlock (copyIn m 0 (l.take 64)) = blockOf l := by
  have hlen : (l.take 64).length = 64 := List.length_take_of_le hl
  refine Vector.ext fun j hj => ?_
  have hj64 : j < 64 := hj
  have hmod : (BitVec.ofNat 6 j).toNat = j := by rw [BitVec.toNat_ofNat, Nat.mod_eq_of_lt hj]
  have hread := memRead1_copyIn h hlen.le (j := BitVec.ofNat 6 j) (by omega)
  rw [hmod, List.getD_eq_getElem?_getD, List.getElem?_take_of_lt hj64, ← List.getD_eq_getElem?_getD] at hread
  simp only [memBlock, blockOf, Vector.getElem_ofFn, hread]

/-! ### The UPDATEs of bytes that pass the end of no block -/

/-- `BUF[used .. used+n-1] <- data[0 .. n-1]`, `CNT <- add64(CNT, n)`: the part of the slice-level update before a
COMPRESS (41_update.md R132). -/
def Arch.writeBytes (a : Arch) (l : List Byte) : Arch :=
  { a.count l.length with buf := copyIn a.buf a.used.toNat l }

theorem writeBytes_nil (a : Arch) : a.writeBytes [] = a := count_zero a

theorem toNat_used_writeBytes (a : Arch) (l : List Byte) :
    (a.writeBytes l).used.toNat = (a.used.toNat + l.length) % 64 := toNat_used_count a l.length

theorem wf_writeBytes {a : Arch} (h : a.buf.wf = true) (l : List Byte) : (a.writeBytes l).buf.wf = true :=
  wf_copyIn h _ l

theorem writeBytes_concat (a : Arch) (l : List Byte) (x : Byte) :
    a.writeBytes (l ++ [x]) = (a.writeBytes l).writeByte x := by
  have hcount : a.count (l ++ [x]).length = (a.count l.length).count 1 := by
    rw [count_count, List.length_append, List.length_singleton]
  have haddr : BitVec.ofNat 6 (a.used.toNat + l.length) = (a.writeBytes l).used :=
    BitVec.eq_of_toNat_eq ((BitVec.toNat_ofNat _ _).trans (toNat_used_writeBytes a l).symm)
  rw [Arch.writeBytes, hcount, copyIn_concat, haddr]
  rfl

theorem phase_writeBytes (a : Arch) (l : List Byte) : (a.writeBytes l).phase = a.phase := rfl

theorem updateN_append (a : Arch) (x y : List Byte) : a.updateN (x ++ y) = (a.updateN x).updateN y :=
  List.foldl_append

/-- UPDATEs that fill no block write and count their bytes. -/
theorem updateN_of_lt {a : Arch} (hphase : a.phase = .absorb) {l : List Byte} (h : a.used.toNat + l.length < 64) :
    a.updateN l = a.writeBytes l := by
  induction l using List.reverseRecOn with
  | nil => exact (writeBytes_nil a).symm
  | append_singleton l x ih =>
    rw [List.length_append, List.length_singleton] at h
    have hused : (a.writeBytes l).used ≠ 63 := by
      have := toNat_used_writeBytes a l
      bv_omega
    rw [updateN_concat, ih (by omega), update_of_absorb ((phase_writeBytes a l).trans hphase), Arch.absorb,
      if_neg hused, writeBytes_concat]

/-- UPDATEs that fill a block exactly compress it. -/
theorem updateN_of_eq {a : Arch} (hphase : a.phase = .absorb) {l : List Byte} (h : a.used.toNat + l.length = 64) :
    a.updateN l = (a.writeBytes l).compressBuf := by
  cases l using List.reverseRecOn with
  | nil => exact absurd h (Nat.ne_of_lt a.used.isLt)
  | append_singleton l x =>
    rw [List.length_append, List.length_singleton] at h
    have hused : (a.writeBytes l).used = 63 := by
      have := toNat_used_writeBytes a l
      bv_omega
    rw [updateN_concat, updateN_of_lt hphase (by omega), update_of_absorb ((phase_writeBytes a l).trans hphase),
      Arch.absorb, if_pos hused, writeBytes_concat]

/-! ### The slice-level update -/

theorem blocks_of_le {l : List Byte} (h : 64 ≤ l.length) : blocks l = blockOf l :: blocks (l.drop 64) := by
  have hq : l.length / 64 = (l.drop 64).length / 64 + 1 := by rw [List.length_drop]; omega
  rw [blocks, hq, takeBlocks, blocks]

theorem remainder_of_le {l : List Byte} (h : 64 ≤ l.length) : remainder l = remainder (l.drop 64) := by
  have hq : l.length / 64 = (l.drop 64).length / 64 + 1 := by rw [List.length_drop]; omega
  rw [remainder, remainder, List.drop_drop, hq, Nat.mul_succ, Nat.add_comm 64]

theorem length_remainder (l : List Byte) : (remainder l).length = l.length % 64 := by
  rw [remainder, List.length_drop]
  omega

theorem sliceDirect_of_lt (a : Arch) {l : List Byte} (h : l.length < 64) :
    a.sliceDirect l = { a with buf := copyIn a.buf 0 l } := by
  rw [Arch.sliceDirect, blocks, remainder, Nat.div_eq_of_lt h]
  rfl

theorem sliceUpdate_of_used_eq_zero {a : Arch} (h : a.used.toNat = 0) (l : List Byte) :
    a.sliceUpdate l = (a.count l.length).sliceDirect l := by
  rw [Arch.sliceUpdate, if_pos h]
  rfl

/-- A slice that fills no block is written and counted. -/
theorem sliceUpdate_of_lt {a : Arch} {l : List Byte} (h : a.used.toNat + l.length < 64) :
    a.sliceUpdate l = a.writeBytes l := by
  by_cases h0 : a.used.toNat = 0
  · rw [sliceUpdate_of_used_eq_zero h0, sliceDirect_of_lt _ (by omega), Arch.writeBytes, h0]
    rfl
  · rw [Arch.sliceUpdate, if_neg h0, if_pos (by omega)]
    rfl

/-- The state after the bytes of `l` that fill the block, and its COMPRESS. -/
def Arch.fillBlock (a : Arch) (l : List Byte) : Arch := (a.writeBytes (l.take (64 - a.used.toNat))).compressBuf

theorem phase_fillBlock (a : Arch) (l : List Byte) : (a.fillBlock l).phase = a.phase := compressBuf_phase _

theorem wf_fillBlock {a : Arch} (h : a.buf.wf = true) (l : List Byte) : (a.fillBlock l).buf.wf = true := by
  rw [Arch.fillBlock, compressBuf_buf]
  exact wf_writeBytes h _

theorem toNat_used_fillBlock {a : Arch} {l : List Byte} (h : 64 ≤ a.used.toNat + l.length) :
    (a.fillBlock l).used.toNat = 0 := by
  rw [Arch.fillBlock, used_congr (compressBuf_cntLo _), toNat_used_writeBytes, List.length_take]
  omega

/-- UPDATEs that fill a block go on from its COMPRESS. -/
theorem updateN_of_le {a : Arch} (hphase : a.phase = .absorb) {l : List Byte} (h : 64 ≤ a.used.toNat + l.length) :
    a.updateN l = (a.fillBlock l).updateN (l.drop (64 - a.used.toNat)) := by
  have hlen : a.used.toNat + (l.take (64 - a.used.toNat)).length = 64 := by
    rw [List.length_take]
    omega
  rw [Arch.fillBlock, ← updateN_of_eq hphase hlen, ← updateN_append, List.take_append_drop]

theorem count_with_h (a : Arch) (x : Chain) (n : Nat) :
    ({ a with h := x } : Arch).count n = { a.count n with h := x } := rfl

theorem count_with_buf (a : Arch) (m : Memory) (n : Nat) :
    ({ a with buf := m } : Arch).count n = { a.count n with buf := m } := rfl

theorem count_compressBuf (a : Arch) (n : Nat) : a.compressBuf.count n = (a.count n).compressBuf := by
  rw [Arch.compressBuf, count_with_h]
  rfl

/-- The bytes of a slice may all be counted before the block is filled (41_update.md R132, step 1). -/
theorem count_fillBlock (a : Arch) (l : List Byte) :
    (a.fillBlock l).count (l.drop (64 - a.used.toNat)).length =
      ({ a.count l.length with buf := copyIn a.buf a.used.toNat (l.take (64 - a.used.toNat)) } : Arch).compressBuf := by
  rw [Arch.fillBlock, count_compressBuf, Arch.writeBytes, count_with_buf, count_count, ← List.length_append,
    List.take_append_drop]

theorem sameButStale_with_h_buf (a : Arch) {h h' : Chain} {m m' : Memory} (hh : h = h')
    (hm : ∀ j < a.used, memRead1 m j = memRead1 m' j) :
    ({ a with h := h, buf := m } : Arch).sameButStale { a with h := h', buf := m' } :=
  ⟨hh, rfl, rfl, rfl, rfl, rfl, hm⟩

theorem sliceDirect_compressBuf (a : Arch) (l : List Byte) : a.compressBuf.sliceDirect l =
    { a with
      h := (blocks l).foldl compress (compress a.h (memBlock a.buf))
      buf := copyIn a.buf 0 (remainder l) } := by
  rw [Arch.sliceDirect, compressBuf_h, compressBuf_cntLo, compressBuf_cntHi, compressBuf_buf, compressBuf_phase,
    compressBuf_err, compressBuf_cause]

/-- The direct path of a block leaves what copying it into the buffer and COMPRESS leave, but for stale bytes
(41_update.md R135). -/
theorem sliceDirect_sameButStale_of_le {a : Arch} (hwf : a.buf.wf = true) {l : List Byte} (hl : 64 ≤ l.length)
    (hused : a.used.toNat = l.length % 64) :
    (a.sliceDirect l).sameButStale
      (({ a with buf := copyIn a.buf 0 (l.take 64) } : Arch).compressBuf.sliceDirect (l.drop 64)) := by
  have hchain : (blocks l).foldl compress a.h =
      (blocks (l.drop 64)).foldl compress (compress a.h (memBlock (copyIn a.buf 0 (l.take 64)))) := by
    rw [blocks_of_le hl, List.foldl_cons, memBlock_copyIn_take hwf hl]
  have hrem : (remainder l).length = l.length % 64 := length_remainder l
  rw [sliceDirect_compressBuf]
  refine sameButStale_with_h_buf a hchain fun j hj => ?_
  rw [← remainder_of_le hl, memRead1_copyIn hwf (by omega) (by bv_omega),
    memRead1_copyIn (wf_copyIn hwf _ _) (by omega) (by bv_omega)]

/-- A slice that fills a block goes on from its COMPRESS, but for stale bytes: whether the buffer holds leftover
bytes and is topped up, or is empty and the block takes the direct path. -/
theorem sliceUpdate_sameButStale_of_le {a : Arch} (hwf : a.buf.wf = true) {l : List Byte}
    (h : 64 ≤ a.used.toNat + l.length) :
    (a.sliceUpdate l).sameButStale ((a.fillBlock l).sliceUpdate (l.drop (64 - a.used.toNat))) := by
  rw [sliceUpdate_of_used_eq_zero (toNat_used_fillBlock h), count_fillBlock]
  by_cases h0 : a.used.toNat = 0
  · have hused := toNat_used_count a l.length
    rw [sliceUpdate_of_used_eq_zero h0, h0]
    exact sliceDirect_sameButStale_of_le (a := a.count l.length) hwf (by omega) (by omega)
  · rw [Arch.sliceUpdate, if_neg h0, if_neg (by omega)]
    exact sameButStale_refl _

/-! ### The two levels -/

theorem sameButStale_symm {a b : Arch} (h : a.sameButStale b) : b.sameButStale a := by
  have hused := sameButStale_used h
  obtain ⟨hh, hlo, hhi, hphase, herr, hcause, hvalid⟩ := h
  exact ⟨hh.symm, hlo.symm, hhi.symm, hphase.symm, herr.symm, hcause.symm,
    fun j hj => (hvalid j (hused ▸ hj)).symm⟩

theorem sameButStale_trans {a b c : Arch} (h : a.sameButStale b) (h' : b.sameButStale c) : a.sameButStale c := by
  have hused := sameButStale_used h
  obtain ⟨hh, hlo, hhi, hphase, herr, hcause, hvalid⟩ := h
  obtain ⟨hh', hlo', hhi', hphase', herr', hcause', hvalid'⟩ := h'
  exact ⟨hh.trans hh', hlo.trans hlo', hhi.trans hhi', hphase.trans hphase', herr.trans herr', hcause.trans hcause',
    fun j hj => (hvalid j hj).trans (hvalid' j (hused ▸ hj))⟩

/-- The two levels agree, by induction on the length of the slice: both pass from one filled block to the next. -/
theorem sliceUpdate_sameButStale_updateN {a : Arch} (hwf : a.buf.wf = true) (hphase : a.phase = .absorb)
    (l : List Byte) : (a.sliceUpdate l).sameButStale (a.updateN l) := by
  induction hn : l.length using Nat.strong_induction_on generalizing a l with
  | _ n ih =>
    by_cases hlt : a.used.toNat + l.length < 64
    · rw [sliceUpdate_of_lt hlt, updateN_of_lt hphase hlt]
      exact sameButStale_refl _
    · have hle : 64 ≤ a.used.toNat + l.length := Nat.le_of_not_lt hlt
      have hshorter : (l.drop (64 - a.used.toNat)).length < n := by
        have hused := a.used.isLt
        rw [List.length_drop]
        omega
      rw [updateN_of_le hphase hle]
      exact sameButStale_trans (sliceUpdate_sameButStale_of_le hwf hle)
        (ih _ hshorter (wf_fillBlock hwf l) ((phase_fillBlock a l).trans hphase) _ rfl)

/-- Settles O46: `sliceUpdate_sameButStale_updateN`, the induction on the length of the slice. -/
theorem sliceUpdateEqualsByteUpdates : Obligations.SliceUpdateEqualsByteUpdates := by
  intro a data hwf hphase
  rw [transactAll_updateWords]
  exact sliceUpdate_sameButStale_updateN hwf hphase data

theorem updateN_keeps_wf_and_phase {a : Arch} (hwf : a.buf.wf = true) (hphase : a.phase = .absorb) (l : List Byte) :
    (a.updateN l).buf.wf = true ∧ (a.updateN l).phase = .absorb := by
  induction l using List.reverseRecOn with
  | nil => exact ⟨hwf, hphase⟩
  | append_singleton l x ih =>
    obtain ⟨hwf', hphase'⟩ := ih
    rw [updateN_concat, update_of_absorb hphase']
    exact ⟨wf_absorb hwf' x, (phase_absorb _ x).trans hphase'⟩

/-- Stale bytes are dead under any number of UPDATEs. -/
theorem sameButStale_updateN {a b : Arch} (ha : a.buf.wf = true) (hb : b.buf.wf = true) (hphase : a.phase = .absorb)
    (h : a.sameButStale b) (l : List Byte) : (a.updateN l).sameButStale (b.updateN l) := by
  induction l using List.reverseRecOn with
  | nil => exact h
  | append_singleton l x ih =>
    obtain ⟨ha', hphasea⟩ := updateN_keeps_wf_and_phase ha hphase l
    obtain ⟨hb', hphaseb⟩ := updateN_keeps_wf_and_phase hb ((sameButStale_phase h).symm.trans hphase) l
    rw [updateN_concat, updateN_concat, update_of_absorb hphasea, update_of_absorb hphaseb]
    exact sameButStale_absorb ha' hb' ih x

theorem wf_sliceDirect {a : Arch} (h : a.buf.wf = true) (l : List Byte) : (a.sliceDirect l).buf.wf = true :=
  wf_copyIn h 0 _

theorem wf_sliceUpdate {a : Arch} (h : a.buf.wf = true) (l : List Byte) : (a.sliceUpdate l).buf.wf = true := by
  rw [Arch.sliceUpdate]
  split
  · exact wf_sliceDirect h l
  · split
    · exact wf_copyIn h _ l
    · exact wf_sliceDirect (by rw [compressBuf_buf]; exact wf_copyIn h _ _) _

/-- Settles O47: both sides are the UPDATEs of `x` and then of `y`, but for stale bytes. -/
theorem chunkingDoesNotMatter : Obligations.ChunkingDoesNotMatter := by
  intro a x y hwf hphase
  have hx : (a.sliceUpdate x).sameButStale (a.updateN x) := sliceUpdate_sameButStale_updateN hwf hphase x
  have hxy : (a.sliceUpdate (x ++ y)).sameButStale ((a.updateN x).updateN y) :=
    updateN_append a x y ▸ sliceUpdate_sameButStale_updateN hwf hphase (x ++ y)
  obtain ⟨hwfN, hphaseN⟩ := updateN_keeps_wf_and_phase hwf hphase x
  have hwfS : (a.sliceUpdate x).buf.wf = true := wf_sliceUpdate hwf x
  have hphaseS : (a.sliceUpdate x).phase = .absorb := (sameButStale_phase hx).trans hphaseN
  have hbytes : ((a.sliceUpdate x).updateN y).sameButStale ((a.updateN x).updateN y) :=
    sameButStale_updateN hwfS hwfN hphaseS hx y
  have hslices : ((a.sliceUpdate x).sliceUpdate y).sameButStale ((a.sliceUpdate x).updateN y) :=
    sliceUpdate_sameButStale_updateN hwfS hphaseS y
  exact sameButStale_trans hxy (sameButStale_symm (sameButStale_trans hslices hbytes))

end Sys2Proof.Machine

namespace Sys2Proof.Machine

/-! ### The role rotation

`stepAccum` keeps the values in place and rotates the roles; `stepRotating` keeps the roles in place and rotates the
values (42_block_processor.md R158). -/

/-- The accumulator that step `n` writes, `w[j]` with `j = (4 - (n mod 4)) mod 4`. -/
def destReg (n : Nat) : WReg := WReg.ofIndex ((4 - n % 4) % 4)

/-- The accumulators in their roles `x0` to `x3`, when `x0` is the accumulator `r`. -/
def Accum.rolesFrom (w : Accum) (r : WReg) : Accum :=
  ⟨w.get r, w.get r.next, w.get r.next.next, w.get r.next.next.next⟩

theorem rolesFrom_a (w : Accum) : w.rolesFrom .a = w := rfl

theorem ofIndex_succ_mod (m : Nat) : WReg.ofIndex ((m + 1) % 4) = (WReg.ofIndex (m % 4)).next := by
  have hlt : m % 4 < 4 := Nat.mod_lt m (by decide)
  rw [Nat.add_mod]
  generalize m % 4 = j at hlt
  interval_cases j <;> rfl

/-- The destination moves backwards, through `a`, `d`, `c`, `b`. -/
theorem next_destReg_succ (n : Nat) : (destReg (n + 1)).next = destReg n := by
  have hindex : (4 - (n + 1) % 4 + 1) % 4 = (4 - n % 4) % 4 := by omega
  rw [destReg, ← ofIndex_succ_mod, hindex, destReg]

/-- A step of the index form writes its destination with the value that the rotating form, given the accumulators in
their roles, puts into `b`. -/
theorem stepAccum_eq_set (M : BitVec 4 → Word) (n : Nat) (w : Accum) :
    stepAccum M n w = w.set (destReg n) (stepRotating M n (w.rolesFrom (destReg n))).b := by
  simp only [stepAccum, stepRotating, Accum.rolesFrom, destReg, ofIndex_succ_mod, Nat.mod_mod]

/-- After a write of `x1` the roles, taken from `x0` on, are those of the rotated values. -/
theorem rolesFrom_set_next (w : Accum) (r : WReg) (x : Word) :
    (w.set r.next x).rolesFrom r =
      ⟨(w.rolesFrom r.next).d, x, (w.rolesFrom r.next).b, (w.rolesFrom r.next).c⟩ := by
  cases r <;> rfl

/-- One step of either form, on accumulators that correspond. -/
theorem stepRotating_rolesFrom (M : BitVec 4 → Word) (n : Nat) (w : Accum) :
    stepRotating M n (w.rolesFrom (destReg n)) = (stepAccum M n w).rolesFrom (destReg (n + 1)) := by
  rw [stepAccum_eq_set, ← next_destReg_succ, rolesFrom_set_next]
  rfl

/-- After `n` steps the rotating form holds the accumulators of the index form in the roles of step `n`. -/
theorem stepsRotating_eq_rolesFrom (M : BitVec 4 → Word) (w : Accum) (n : Nat) :
    stepsRotating M w n = (stepsTo M w n).rolesFrom (destReg n) := by
  induction n with
  | zero => rfl
  | succ n ih => rw [stepsRotating, ih, stepRotating_rolesFrom, stepsTo]

/-- Settles O29: `stepsRotating_eq_rolesFrom`, the induction on the steps; 64 is a multiple of 4, so the roles are then
back at `a`. -/
theorem rotatingValuesIsTheSameCompress : Obligations.RotatingValuesIsTheSameCompress := by
  intro M w
  have hdest : destReg 64 = .a := rfl
  rw [stepsRotating_eq_rolesFrom, hdest, rolesFrom_a]

/-- Settles O27, by `exec_of_decodeSeq_lt`: the value `n` of STEP decodes as a sequencer's word. -/
theorem stepsAreTheGenericStep : Obligations.StepsAreTheGenericStep := by
  intro n i hn hdecode s
  exact exec_of_decodeSeq_lt hn hdecode s

/-! ### The mixing functions -/

/-- `E` chooses by the bit of `x` (42_block_processor.md R154). -/
theorem getLsbD_mixE (x y z : Word) (n : Nat) :
    (mixE x y z).getLsbD n = if x.getLsbD n then y.getLsbD n else z.getLsbD n := by
  rw [mixE, BitVec.getLsbD_xor, BitVec.getLsbD_and, BitVec.getLsbD_xor]
  cases x.getLsbD n <;> simp [Bool.xor_comm (y.getLsbD n)]

theorem mixE_eq_or (x y z : Word) : mixE x y z = (x &&& y) ||| (~~~x &&& z) := by
  apply BitVec.eq_of_getLsbD_eq
  intro n hn
  rw [getLsbD_mixE, BitVec.getLsbD_or, BitVec.getLsbD_and, BitVec.getLsbD_and, BitVec.getLsbD_not]
  cases x.getLsbD n <;> simp [hn]

/-- `G` is `E` with `z` as the chooser (42_block_processor.md R155). -/
theorem mixG_eq_mixE (x y z : Word) : mixG x y z = mixE z x y := rfl

theorem mixG_eq_or (x y z : Word) : mixG x y z = (x &&& z) ||| (y &&& ~~~z) := by
  rw [mixG_eq_mixE, mixE_eq_or, BitVec.and_comm z x, BitVec.and_comm (~~~z) y]

theorem getLsbD_mixG (x y z : Word) (n : Nat) :
    (mixG x y z).getLsbD n = if z.getLsbD n then x.getLsbD n else y.getLsbD n := by
  rw [mixG_eq_mixE, getLsbD_mixE]

/-- Settles O52: what `E` does to a bit gives its canonical form, and `G` is an `E`. -/
theorem mixingFunctionsAreTheirFormulas : Obligations.MixingFunctionsAreTheirFormulas := by
  refine ⟨fun x y z => ?_, by decide, by decide, by decide, by decide⟩
  exact ⟨rfl, mixE_eq_or x y z, fun n _ => getLsbD_mixE x y z n, rfl, mixG_eq_or x y z, mixG_eq_mixE x y z,
    fun n _ => getLsbD_mixG x y z n, rfl, rfl⟩

end Sys2Proof.Machine

namespace Sys2Proof.Machine

/-! ### The steps as their rules write them

One rule per accumulator that a step can write: `seqStep` names the accumulator and the cyclic order gives the other
three (42_block_processor.md R158). -/

section
variable {s : State} {i : Instr} {f : Word → Word → Word → Word} {k : BitVec 4} {const : Word} {amount : Nat}
  {next : BitVec 7}

theorem exec_eq_of_seqStep_a (h : exec i s = .next (s.seqStep .a f k const amount next)) : exec i s = .next { s with
    acc := { s.acc with
      a := s.acc.b + rotl32 (s.acc.a + f s.acc.b s.acc.c s.acc.d + memRead4 s.arch.buf k + const) amount }
    stepReg := next } := h

theorem exec_eq_of_seqStep_d (h : exec i s = .next (s.seqStep .d f k const amount next)) : exec i s = .next { s with
    acc := { s.acc with
      d := s.acc.a + rotl32 (s.acc.d + f s.acc.a s.acc.b s.acc.c + memRead4 s.arch.buf k + const) amount }
    stepReg := next } := h

theorem exec_eq_of_seqStep_c (h : exec i s = .next (s.seqStep .c f k const amount next)) : exec i s = .next { s with
    acc := { s.acc with
      c := s.acc.d + rotl32 (s.acc.c + f s.acc.d s.acc.a s.acc.b + memRead4 s.arch.buf k + const) amount }
    stepReg := next } := h

theorem exec_eq_of_seqStep_b (h : exec i s = .next (s.seqStep .b f k const amount next)) : exec i s = .next { s with
    acc := { s.acc with
      b := s.acc.c + rotl32 (s.acc.b + f s.acc.c s.acc.d s.acc.a + memRead4 s.arch.buf k + const) amount }
    stepReg := next } := h

end

/-- Settles O19: steps 0 to 7 write `a`, `d`, `c`, `b` in turn, twice. The meaning of each step is the `seqStep` of its
rule, which `rfl` unfolds. -/
theorem steps0To7WriteOneAccumulator : Obligations.Steps0To7WriteOneAccumulator := fun _ =>
  ⟨exec_eq_of_seqStep_a rfl, exec_eq_of_seqStep_d rfl, exec_eq_of_seqStep_c rfl, exec_eq_of_seqStep_b rfl,
    exec_eq_of_seqStep_a rfl, exec_eq_of_seqStep_d rfl, exec_eq_of_seqStep_c rfl, exec_eq_of_seqStep_b rfl⟩

/-- Settles O20: steps 8 to 15 write `a`, `d`, `c`, `b` in turn, twice. -/
theorem steps8To15WriteOneAccumulator : Obligations.Steps8To15WriteOneAccumulator := fun _ =>
  ⟨exec_eq_of_seqStep_a rfl, exec_eq_of_seqStep_d rfl, exec_eq_of_seqStep_c rfl, exec_eq_of_seqStep_b rfl,
    exec_eq_of_seqStep_a rfl, exec_eq_of_seqStep_d rfl, exec_eq_of_seqStep_c rfl, exec_eq_of_seqStep_b rfl⟩

/-- Settles O21: steps 16 to 23 write `a`, `d`, `c`, `b` in turn, twice. -/
theorem steps16To23WriteOneAccumulator : Obligations.Steps16To23WriteOneAccumulator := fun _ =>
  ⟨exec_eq_of_seqStep_a rfl, exec_eq_of_seqStep_d rfl, exec_eq_of_seqStep_c rfl, exec_eq_of_seqStep_b rfl,
    exec_eq_of_seqStep_a rfl, exec_eq_of_seqStep_d rfl, exec_eq_of_seqStep_c rfl, exec_eq_of_seqStep_b rfl⟩

/-- Settles O22: steps 24 to 31 write `a`, `d`, `c`, `b` in turn, twice. -/
theorem steps24To31WriteOneAccumulator : Obligations.Steps24To31WriteOneAccumulator := fun _ =>
  ⟨exec_eq_of_seqStep_a rfl, exec_eq_of_seqStep_d rfl, exec_eq_of_seqStep_c rfl, exec_eq_of_seqStep_b rfl,
    exec_eq_of_seqStep_a rfl, exec_eq_of_seqStep_d rfl, exec_eq_of_seqStep_c rfl, exec_eq_of_seqStep_b rfl⟩

/-- Settles O23: steps 32 to 39 write `a`, `d`, `c`, `b` in turn, twice. -/
theorem steps32To39WriteOneAccumulator : Obligations.Steps32To39WriteOneAccumulator := fun _ =>
  ⟨exec_eq_of_seqStep_a rfl, exec_eq_of_seqStep_d rfl, exec_eq_of_seqStep_c rfl, exec_eq_of_seqStep_b rfl,
    exec_eq_of_seqStep_a rfl, exec_eq_of_seqStep_d rfl, exec_eq_of_seqStep_c rfl, exec_eq_of_seqStep_b rfl⟩

/-- Settles O24: steps 40 to 47 write `a`, `d`, `c`, `b` in turn, twice. -/
theorem steps40To47WriteOneAccumulator : Obligations.Steps40To47WriteOneAccumulator := fun _ =>
  ⟨exec_eq_of_seqStep_a rfl, exec_eq_of_seqStep_d rfl, exec_eq_of_seqStep_c rfl, exec_eq_of_seqStep_b rfl,
    exec_eq_of_seqStep_a rfl, exec_eq_of_seqStep_d rfl, exec_eq_of_seqStep_c rfl, exec_eq_of_seqStep_b rfl⟩

/-- Settles O25: steps 48 to 55 write `a`, `d`, `c`, `b` in turn, twice. -/
theorem steps48To55WriteOneAccumulator : Obligations.Steps48To55WriteOneAccumulator := fun _ =>
  ⟨exec_eq_of_seqStep_a rfl, exec_eq_of_seqStep_d rfl, exec_eq_of_seqStep_c rfl, exec_eq_of_seqStep_b rfl,
    exec_eq_of_seqStep_a rfl, exec_eq_of_seqStep_d rfl, exec_eq_of_seqStep_c rfl, exec_eq_of_seqStep_b rfl⟩

/-- Settles O26: steps 56 to 63 write `a`, `d`, `c`, `b` in turn, twice. -/
theorem steps56To63WriteOneAccumulator : Obligations.Steps56To63WriteOneAccumulator := fun _ =>
  ⟨exec_eq_of_seqStep_a rfl, exec_eq_of_seqStep_d rfl, exec_eq_of_seqStep_c rfl, exec_eq_of_seqStep_b rfl,
    exec_eq_of_seqStep_a rfl, exec_eq_of_seqStep_d rfl, exec_eq_of_seqStep_c rfl, exec_eq_of_seqStep_b rfl⟩

/-! ### The feed-forward -/

theorem exec_feedfwd (s : State) : exec .feedfwd s = .next (s.mapArch (·.feedForward s.acc)).endCompress := rfl

/-- Settles O28: the answer is the `endCompress` of the sums, whose fields the lemmas about it give. -/
theorem feedForwardAddsAndReturns : Obligations.FeedForwardAddsAndReturns := by
  intro s
  refine ⟨_, exec_feedfwd s, ?_, ?_, endCompress_inputs _, endCompress_stepReg_le _⟩
  · rw [endCompress_arch, mapArch_activity, mapArch_arch]
    split <;> rfl
  · rw [endCompress_activity, mapArch_activity]
    cases s.activity <;> rfl

end Sys2Proof.Machine

namespace Sys2Proof.Machine

/-! ### The FINALIZE command and PAD2 -/

theorem exec_finalize (d : Byte) (s : State) : exec (.finalize d) s = execFinalize d s := rfl

theorem twoBlocks_iff (a : Arch) : a.twoBlocks = true ↔ 56 ≤ a.used.toNat := by
  rw [Arch.twoBlocks, Arch.free, decide_eq_true_eq]
  omega

theorem exec_finalize_of_le {s : State} (hphase : s.arch.phase = .absorb) (hused : s.arch.used.toNat ≤ 55)
    (d : Byte) :
    exec (.finalize d) s = .next ((s.mapArch Arch.padOne).startCompress .compT) := by
  have htwo : ¬ s.arch.twoBlocks = true := by rw [twoBlocks_iff]; omega
  simp only [exec_finalize, execFinalize, hphase, if_neg htwo]

theorem exec_finalize_of_ge {s : State} (hphase : s.arch.phase = .absorb) (hused : 56 ≤ s.arch.used.toNat)
    (d : Byte) :
    exec (.finalize d) s = .next ((s.mapArch Arch.padFirst).startCompress .comp1) := by
  simp only [exec_finalize, execFinalize, hphase, if_pos ((twoBlocks_iff _).mpr hused)]

/-- The two words of the length field are the halves of `8 * CNT mod 2^64` (44_finalize.md R275). -/
theorem shl3_append_eq (a : Arch) :
    shl3Hi a.cntLo a.cntHi ++ shl3Lo a.cntLo = BitVec.ofNat 64 (8 * a.cnt.toNat) :=
  BitVec.eq_of_toNat_eq ((toNat_shl3_append a.cntLo a.cntHi).trans (BitVec.toNat_ofNat _ _).symm)

theorem shl3Lo_eq_extractLsb' (a : Arch) :
    shl3Lo a.cntLo = (BitVec.ofNat 64 (8 * a.cnt.toNat)).extractLsb' 0 32 := by
  rw [← shl3_append_eq, BitVec.extractLsb'_append_eq_right]

theorem shl3Hi_eq_extractLsb' (a : Arch) :
    shl3Hi a.cntLo a.cntHi = (BitVec.ofNat 64 (8 * a.cnt.toNat)).extractLsb' 32 32 := by
  rw [← shl3_append_eq, BitVec.extractLsb'_append_eq_left]

/-- A read after the write of the length: its bytes, little-endian, from 56 on, every other byte as before. -/
theorem memRead1_writeLength_eq_length (a : Arch) {m : Memory} (h : m.wf = true) (j : BitVec 6) :
    memRead1 (a.writeLength m) j = if j.toNat < 56 then memRead1 m j
      else (BitVec.ofNat 64 (8 * a.cnt.toNat)).extractLsb' (8 * (j.toNat - 56)) 8 := by
  have hr : j.toNat % 4 < 4 := Nat.mod_lt _ (by decide)
  rw [memRead1_writeLength a h, shl3Lo_eq_extractLsb', shl3Hi_eq_extractLsb', le32Byte_extractLsb' _ _ hr,
    le32Byte_extractLsb' _ _ hr]
  by_cases hlt : j.toNat < 56
  · rw [if_neg (by omega), if_neg (by omega), if_pos hlt]
  · rw [if_neg hlt]
    by_cases h60 : j.toNat < 60
    · rw [if_neg (by omega), if_pos (by omega)]
      congr 1
      omega
    · rw [if_pos (by omega)]
      congr 1
      omega

/-- The terminal block of the one-block path (44_finalize.md R271, R274, R275). -/
theorem memRead1_padOne {a : Arch} (h : a.buf.wf = true) (hused : a.used.toNat ≤ 55) (j : BitVec 6) :
    memRead1 a.padOne.buf j = if j < a.used then memRead1 a.buf j
      else if j = a.used then 0x80
      else if j.toNat < 56 then 0x00
      else (BitVec.ofNat 64 (8 * a.cnt.toNat)).extractLsb' (8 * (j.toNat - 56)) 8 := by
  rw [padOne_buf, memRead1_writeLength_eq_length a (wf_zeroFill (wf_terminated h) _ _)]
  by_cases hlt : j.toNat < 56
  · rw [if_pos hlt, memRead1_zeroFill_terminated h (by decide) j (by omega), if_pos hlt]
  · rw [if_neg hlt, if_neg (by bv_omega), if_neg (by bv_omega), if_neg hlt]

/-- The first block of the two-block path (44_finalize.md R271, R273). -/
theorem memRead1_padFirst {a : Arch} (h : a.buf.wf = true) (j : BitVec 6) :
    memRead1 a.padFirst.buf j =
      if j < a.used then memRead1 a.buf j else if j = a.used then 0x80 else 0x00 := by
  rw [padFirst_buf, memRead1_zeroFill_terminated h le_rfl j (by omega)]

/-- The fresh block of the two-block path (44_finalize.md R273, R275). -/
theorem memRead1_padFresh (a : Arch) (j : BitVec 6) :
    memRead1 a.padFresh.buf j = if j.toNat < 56 then 0x00
      else (BitVec.ofNat 64 (8 * a.cnt.toNat)).extractLsb' (8 * (j.toNat - 56)) 8 := by
  rw [padFresh_buf, memRead1_writeLength_eq_length a wf_clearBuf, clearBuf, memRead1_nil]

/-- Settles O16: the answer is `padOne` and the load of the terminal COMPRESS. -/
theorem finalizeOneBlockPads : Obligations.FinalizeOneBlockPads := by
  intro s d hwf hphase hused
  exact ⟨_, exec_finalize_of_le hphase hused d, memRead1_padOne hwf hused, rfl⟩

/-- Settles O17: the answer is `padFirst` and the load of the first COMPRESS. -/
theorem finalizeTwoBlocksPadsFirst : Obligations.FinalizeTwoBlocksPadsFirst := by
  intro s d hwf hphase hused
  exact ⟨_, exec_finalize_of_ge hphase hused d, memRead1_padFirst hwf, rfl⟩

/-- Settles O18: the answer is the `runPad2` of `step_of_pad2`, whose buffer is that of `padFresh`. -/
theorem freshBlockHoldsOnlyTheLength : Obligations.FreshBlockHoldsOnlyTheLength := by
  intro s hpad hrst
  exact ⟨_, step_of_pad2 hrst hpad, memRead1_padFresh s.arch, rfl⟩

end Sys2Proof.Machine

namespace Sys2Proof.Machine

/-! ### The hex digits -/

/-- A hex digit reads as the nibble it was written for: the decimal digits and the letters are disjoint. -/
theorem hexVal_hexChar {v : Byte} (h : v < 16) : hexVal (hexChar v) = some v := by
  by_cases h9 : v ≤ 9
  · have hdigit : 0x30 ≤ 0x30 + v ∧ 0x30 + v ≤ 0x39 := by bv_omega
    rw [hexChar, if_pos h9, hexVal, if_pos hdigit]
    congr 1
    bv_omega
  · have hdigit : ¬(0x30 ≤ 0x61 + (v - 10) ∧ 0x61 + (v - 10) ≤ 0x39) := by bv_omega
    have hletter : 0x61 ≤ 0x61 + (v - 10) ∧ 0x61 + (v - 10) ≤ 0x66 := by bv_omega
    rw [hexChar, if_neg h9, hexVal, if_neg hdigit, if_pos hletter]
    congr 1
    bv_omega

theorem highNibble_lt (b : Byte) : b >>> 4 < 16 := by bv_omega

theorem toNat_lowNibble (b : Byte) : (b &&& 0xf).toNat = b.toNat % 16 :=
  (BitVec.toNat_and _ _).trans (Nat.and_two_pow_sub_one_eq_mod _ 4)

theorem lowNibble_lt (b : Byte) : b &&& 0xf < 16 := by
  have := toNat_lowNibble b
  bv_omega

theorem nibbles_join (b : Byte) : 16#8 * (b >>> 4) + (b &&& 0xf) = b := by
  have hlow := toNat_lowNibble b
  bv_omega

theorem digestToHex_cons (b : Byte) (dg : List Byte) :
    digestToHex (b :: dg) = hexChar (b >>> 4) :: hexChar (b &&& 0xf) :: digestToHex dg := rfl

theorem hexToDigest_digestToHex (dg : List Byte) : hexToDigest (digestToHex dg) = some dg := by
  induction dg with
  | nil => rfl
  | cons b dg ih =>
    simp only [digestToHex_cons, hexToDigest, hexVal_hexChar (highNibble_lt b), hexVal_hexChar (lowNibble_lt b), ih]
    exact congrArg (fun x => some (x :: dg)) (nibbles_join b)

theorem length_digestToHex (dg : List Byte) : (digestToHex dg).length = 2 * dg.length := by
  induction dg with
  | nil => rfl
  | cons b dg ih => rw [digestToHex_cons, List.length_cons, List.length_cons, ih, List.length_cons]; rfl

/-- Settles O59: the round trip by induction over the bytes, the examples by evaluation. -/
theorem hexRoundTrip : Obligations.HexRoundTrip :=
  ⟨fun dg => ⟨hexToDigest_digestToHex dg, length_digestToHex dg⟩, by decide⟩

end Sys2Proof.Machine

namespace Sys2Proof.Machine

/-! ### The blocks of a padded message -/

theorem getD_pad_of_lt {m : List Byte} {i : Nat} (hi : i < m.length) : (pad m).getD i 0 = m.getD i 0 := by
  rw [pad_eq, List.append_assoc, List.append_assoc, List.getD_append _ _ _ _ hi]

theorem getD_pad_of_eq {m : List Byte} {i : Nat} (hi : i = m.length) : (pad m).getD i 0 = 0x80 := by
  rw [pad_eq, List.append_assoc, List.append_assoc, List.getD_append_right _ _ _ _ hi.ge, hi, Nat.sub_self]
  rfl

theorem getD_pad_of_between {m : List Byte} {i : Nat} (hi : m.length < i) (hlen : i + 8 < (pad m).length) :
    (pad m).getD i 0 = 0x00 := by
  have hfront : (m ++ [(0x80 : Byte)]).length = m.length + 1 := by rw [List.length_append, List.length_singleton]
  rw [length_pad] at hlen
  rw [pad_eq, List.append_assoc, List.getD_append_right _ _ _ _ (by omega), hfront,
    List.getD_append _ _ _ _ (by rw [List.length_replicate]; omega), List.getD_replicate _ (by omega)]

/-- The last eight bytes of the padded message are those of its length in bits (30_encoding.md R99). -/
theorem getD_pad_of_ge {m : List Byte} {i : Nat} (hi : i < (pad m).length) (hlen : (pad m).length ≤ i + 8) :
    (pad m).getD i 0 = (BitVec.ofNat 64 (8 * m.length)).extractLsb' (8 * (i + 8 - (pad m).length)) 8 := by
  rw [length_pad] at hi hlen ⊢
  have hfront : (m ++ [0x80] ++ List.replicate (zeroBytes m.length) (0x00 : Byte)).length =
      m.length + 1 + zeroBytes m.length := by
    rw [List.length_append, List.length_append, List.length_singleton, List.length_replicate]
  have hidx : i - (m.length + 1 + zeroBytes m.length) = i + 8 - (m.length + 1 + zeroBytes m.length + 8) := by omega
  rw [pad_eq, List.getD_append_right _ _ _ _ (by omega), hfront, hidx, List.getD_eq_getElem?_getD,
    List.getElem?_map, List.getElem?_range (by omega)]
  rfl

theorem length_pad_of_le {m : List Byte} (h : m.length % 64 ≤ 55) : (pad m).length = 64 * (m.length / 64) + 64 := by
  have hz : zeroBytes m.length = (119 - m.length % 64) % 64 := rfl
  have hlen := length_pad m
  omega

theorem length_pad_of_ge {m : List Byte} (h : 56 ≤ m.length % 64) : (pad m).length = 64 * (m.length / 64) + 128 := by
  have hz : zeroBytes m.length = (119 - m.length % 64) % 64 := rfl
  have hlen := length_pad m
  omega

/-- The padding keeps the whole blocks of the message. -/
theorem takeBlocks_pad (m : List Byte) : takeBlocks (m.length / 64) (pad m) = blocks m := by
  rw [pad, List.append_assoc, List.append_assoc, takeBlocks_append (by omega), blocks]

theorem blocks_pad_of_le {m : List Byte} (h : m.length % 64 ≤ 55) :
    blocks (pad m) = blocks m ++ [blockOf ((pad m).drop (64 * (m.length / 64)))] := by
  have hq : (pad m).length / 64 = m.length / 64 + 1 := by rw [length_pad_of_le h]; omega
  rw [blocks, hq, takeBlocks_succ, takeBlocks_pad]

theorem blocks_pad_of_ge {m : List Byte} (h : 56 ≤ m.length % 64) :
    blocks (pad m) = blocks m ++ [blockOf ((pad m).drop (64 * (m.length / 64))),
      blockOf ((pad m).drop (64 * (m.length / 64 + 1)))] := by
  have hq : (pad m).length / 64 = m.length / 64 + 1 + 1 := by rw [length_pad_of_ge h]; omega
  rw [blocks, hq, takeBlocks_succ, takeBlocks_succ, takeBlocks_pad, List.append_assoc]
  rfl

/-! ### The padded buffer of a message -/

/-- The buffer holds block `k` of a byte string when it reads its bytes. -/
theorem memBlock_eq_blockOf {b : Memory} {l : List Byte} {k : Nat}
    (h : ∀ j : BitVec 6, memRead1 b j = l.getD (64 * k + j.toNat) 0) : memBlock b = blockOf (l.drop (64 * k)) := by
  refine Vector.ext fun j hj => ?_
  have hmod : (BitVec.ofNat 6 j).toNat = j := by rw [BitVec.toNat_ofNat, Nat.mod_eq_of_lt hj]
  simp only [memBlock, blockOf, Vector.getElem_ofFn, h, hmod, List.getD_eq_getElem?_getD, List.getElem?_drop]

theorem holds_valid {a : Arch} {m : List Byte} (h : a.holds m) {j : BitVec 6} (hj : j < a.used) :
    memRead1 a.buf j = m.getD (64 * (m.length / 64) + j.toNat) 0 := by
  obtain ⟨-, -, hvalid⟩ := h
  exact hvalid j hj

/-- The length field is that of the message, though the counter wraps (44_finalize.md R275). -/
theorem ofNat_eight_mul_cnt {a : Arch} {n : Nat} (h : a.cnt = BitVec.ofNat 64 n) :
    BitVec.ofNat 64 (8 * a.cnt.toNat) = BitVec.ofNat 64 (8 * n) := by
  apply BitVec.eq_of_toNat_eq
  rw [h, BitVec.toNat_ofNat, BitVec.toNat_ofNat, BitVec.toNat_ofNat]
  omega

/-- PAD1 of the one-block path writes the last block of the padded message. -/
theorem holds_memBlock_padOne {a : Arch} {m : List Byte} (hwf : a.buf.wf = true) (h : a.holds m)
    (hused : a.used.toNat ≤ 55) : memBlock a.padOne.buf = blockOf ((pad m).drop (64 * (m.length / 64))) := by
  have hmod := holds_used h
  have hlen := length_pad_of_le (m := m) (by omega)
  refine memBlock_eq_blockOf fun j => ?_
  have hj := j.isLt
  rw [memRead1_padOne hwf hused, ofNat_eight_mul_cnt (holds_cnt h)]
  by_cases hlt : j < a.used
  · rw [if_pos hlt, holds_valid h hlt, getD_pad_of_lt (by bv_omega)]
  · rw [if_neg hlt]
    by_cases heq : j = a.used
    · rw [if_pos heq, getD_pad_of_eq (by bv_omega)]
    · rw [if_neg heq]
      by_cases h56 : j.toNat < 56
      · rw [if_pos h56, getD_pad_of_between (by bv_omega) (by omega)]
      · rw [if_neg h56, getD_pad_of_ge (by omega) (by omega)]
        congr 2
        omega

/-- PAD1 of the two-block path writes the last block but one of the padded message. -/
theorem holds_memBlock_padFirst {a : Arch} {m : List Byte} (hwf : a.buf.wf = true) (h : a.holds m)
    (hused : 56 ≤ a.used.toNat) : memBlock a.padFirst.buf = blockOf ((pad m).drop (64 * (m.length / 64))) := by
  have hmod := holds_used h
  have hlen := length_pad_of_ge (m := m) (by omega)
  refine memBlock_eq_blockOf fun j => ?_
  have hj := j.isLt
  rw [memRead1_padFirst hwf]
  by_cases hlt : j < a.used
  · rw [if_pos hlt, holds_valid h hlt, getD_pad_of_lt (by bv_omega)]
  · rw [if_neg hlt]
    by_cases heq : j = a.used
    · rw [if_pos heq, getD_pad_of_eq (by bv_omega)]
    · rw [if_neg heq, getD_pad_of_between (by bv_omega) (by omega)]

/-- PAD2 writes the last block of the padded message, which holds only its length. -/
theorem memBlock_padFresh {a : Arch} {m : List Byte} (h : a.cnt = BitVec.ofNat 64 m.length)
    (hlong : 56 ≤ m.length % 64) : memBlock a.padFresh.buf = blockOf ((pad m).drop (64 * (m.length / 64 + 1))) := by
  have hlen := length_pad_of_ge hlong
  refine memBlock_eq_blockOf fun j => ?_
  have hj := j.isLt
  rw [memRead1_padFresh, ofNat_eight_mul_cnt h]
  by_cases h56 : j.toNat < 56
  · rw [if_pos h56, getD_pad_of_between (by omega) (by omega)]
  · rw [if_neg h56, getD_pad_of_ge (by omega) (by omega)]
    congr 2
    omega

/-! ### The FINALIZE of a message -/

/-- FINALIZE in phase ABSORB writes the chaining words, BUF and PHASE only (44_finalize.md R270, R279). -/
theorem padAndCompress_frame (a : Arch) : a.padAndCompress =
    { a with h := a.padAndCompress.h, buf := a.padAndCompress.buf, phase := .done } := by
  rw [Arch.padAndCompress]
  split <;> simp

theorem cnt_padAndCompress (a : Arch) : a.padAndCompress.cnt = a.cnt := by
  rw [padAndCompress_frame]
  rfl

/-- The chaining words after the FINALIZE of a message are those of all blocks of the padded message
(44_finalize.md R278). -/
theorem holds_padAndCompress_h {a : Arch} {m : List Byte} (hwf : a.buf.wf = true) (h : a.holds m) :
    a.padAndCompress.h = (blocks (pad m)).foldl compress Chain.iv := by
  have hmod := holds_used h
  by_cases htwo : a.twoBlocks = true
  · have hused := (twoBlocks_iff a).mp htwo
    have hcnt : a.padFirst.compressBuf.cnt = BitVec.ofNat 64 m.length := by
      rw [cnt_compressBuf, cnt_congr (padFirst_cntLo a) (padFirst_cntHi a), holds_cnt h]
    rw [Arch.padAndCompress, if_pos htwo, blocks_pad_of_ge (by omega), List.foldl_append, ← holds_h h,
      ← holds_memBlock_padFirst hwf h hused, ← memBlock_padFresh hcnt (by omega)]
    simp only [compressBuf_h, padFresh_h, padFirst_h, List.foldl_cons, List.foldl_nil]
  · have hused : a.used.toNat ≤ 55 := by rw [twoBlocks_iff] at htwo; omega
    rw [Arch.padAndCompress, if_neg htwo, blocks_pad_of_le (by omega), List.foldl_append, ← holds_h h,
      ← holds_memBlock_padOne hwf h hused]
    simp only [compressBuf_h, padOne_h, List.foldl_cons, List.foldl_nil]

/-! ### HASH -/

theorem absorb_err_cause (a : Arch) (x : Byte) : (a.absorb x).err = a.err ∧ (a.absorb x).cause = a.cause := by
  rw [Arch.absorb]
  split <;> simp

/-- The UPDATEs of an open message raise no error. -/
theorem updateN_err_cause {a : Arch} (hwf : a.buf.wf = true) (hphase : a.phase = .absorb) (l : List Byte) :
    (a.updateN l).err = a.err ∧ (a.updateN l).cause = a.cause := by
  induction l using List.reverseRecOn with
  | nil => exact ⟨rfl, rfl⟩
  | append_singleton l x ih =>
    obtain ⟨-, hphase'⟩ := updateN_keeps_wf_and_phase hwf hphase l
    obtain ⟨herr, hcause⟩ := absorb_err_cause (a.updateN l) x
    rw [updateN_concat, update_of_absorb hphase', herr, hcause]
    exact ih

/-- RESET makes the state before HASH irrelevant. -/
theorem transactAll_hashWords (a : Arch) (m : List Byte) :
    a.transactAll (hashWords m) = (Arch.reset.updateN m).finalize := by
  have hreset : a.transact 0x000#10 = Arch.reset := transact_of_reset rfl a
  rw [← transactAll_updateWords, ← transact_of_finalize (c := 0x200#10) rfl, ← hreset, Arch.transactAll, hashWords,
    List.foldl_append]
  rfl

/-- The architectural state after HASH, from any state. -/
theorem transactAll_hashWords_spec (a : Arch) (m : List Byte) :
    (a.transactAll (hashWords m)).h = (blocks (pad m)).foldl compress Chain.iv ∧
    (a.transactAll (hashWords m)).cnt = BitVec.ofNat 64 m.length ∧
    (a.transactAll (hashWords m)).phase = .done ∧ (a.transactAll (hashWords m)).err = false ∧
    (a.transactAll (hashWords m)).cause = .noCause := by
  obtain ⟨hholds, hphase, hwf⟩ := holds_updateN m
  obtain ⟨herr, hcause⟩ := updateN_err_cause (a := Arch.reset) rfl rfl m
  rw [transactAll_hashWords, finalize_of_absorb hphase]
  refine ⟨holds_padAndCompress_h hwf hholds, (cnt_padAndCompress _).trans (holds_cnt hholds), ?_⟩
  rw [padAndCompress_frame]
  exact ⟨rfl, herr, hcause⟩

theorem hash_eq_referenceDigest (a : Arch) (m : List Byte) : hash a m = referenceDigest m := by
  obtain ⟨hh, -⟩ := transactAll_hashWords_spec a m
  rw [hash, hh, referenceDigest]

theorem stringBytes_append_zero {m : List Byte} (h : ∀ b ∈ m, b ≠ 0) (rest : List Byte) :
    stringBytes (m ++ 0 :: rest) = m := by
  rw [stringBytes, List.takeWhile_append_of_pos (by simpa using h)]
  simp

/-- Settles O48: `transactAll_hashWords_spec`, and the bytes `HASH_STR` hashes are `stringBytes_append_zero`. -/
theorem hashIsTheFoldOfCompress : Obligations.HashIsTheFoldOfCompress := by
  refine ⟨fun a m => ?_, fun a m rest h => ?_⟩
  · obtain ⟨-, hcnt, hphase, herr, -⟩ := transactAll_hashWords_spec a m
    exact ⟨hash_eq_referenceDigest a m, hcnt, hphase, herr⟩
  · rw [hashStr, stringBytes_append_zero h, hash_eq_referenceDigest]

end Sys2Proof.Machine

namespace Sys2Proof.Machine

/-! ### Paced commands -/

theorem compressions_le_two (a : Arch) (c : BitVec 10) : a.compressions c ≤ 2 := by
  rw [Arch.compressions]
  split
  · split <;> decide
  · split <;> decide
  · decide

/-- The longest command is the two-block FINALIZE (70_reset_and_hazards.md R358). -/
theorem latency_le (a : Arch) (c : BitVec 10) : a.latency 1 65 c ≤ 132 := by
  have := compressions_le_two a c
  rw [Arch.latency]
  split <;> omega

/-- An idle engine holds its state while nothing is driven (60_exceptions.md R329). -/
theorem runEdges_nothing {s : State} {n : Nat} {rest : List PortIn} (hi : s.activity = .idle)
    (hin : s.inputs = List.replicate n PortIn.nothing ++ rest) : runEdges n s = .next { s with inputs := rest } := by
  induction n generalizing s with
  | zero =>
    obtain rfl : s.inputs = rest := hin
    rfl
  | succ n ih =>
    have hs := sample_of_inputs (s := s) hin
    have hstep : step s = .next s.sampled := step_of_hold (by rw [hs]; rfl) hi (by rw [hs]; rfl)
    rw [runEdges_succ_of_next hstep]
    exact ih (s := s.sampled) hi (by rw [sampled_inputs, hin]; rfl)

/-- An offered word and 131 idle edges run the command to its end: its latency by `edgesRefineTransactions`, the
other edges hold. -/
theorem runEdges_offer {s : State} {c : BitVec 10} {rest : List PortIn} (hi : s.activity = .idle)
    (hin : s.inputs = PortIn.offer c :: (List.replicate 131 PortIn.nothing ++ rest)) :
    ∃ t, runEdges 132 s = .next t ∧ t.arch = s.arch.transact c ∧ t.activity = .idle ∧ t.inputs = rest := by
  obtain ⟨n, hn⟩ := Nat.exists_eq_succ_of_ne_zero (latency_pos s.arch c).ne'
  obtain ⟨k, hk⟩ := Nat.exists_eq_add_of_le (latency_le s.arch c)
  have hnk : 131 = n + k := by omega
  rw [hnk, List.replicate_add, List.append_assoc] at hin
  have hrst : noRst (s.arch.latency 1 65 c) s.inputs = true := by
    rw [hn, hin]
    simp [noRst, PortIn.offer, PortIn.nothing]
  obtain ⟨⟨t, hrun, harch, hready, htin⟩, -⟩ := edgesRefineTransactions s c _ hi hin hrst
  have hdrop : t.inputs = List.replicate k PortIn.nothing ++ rest := by
    rw [htin, hn, hin, List.drop_succ_cons, List.drop_left' List.length_replicate]
  have hidle := (ready_iff t).mp hready
  exact ⟨{ t with inputs := rest }, by rw [hk, runEdges_add hrun, runEdges_nothing hidle hdrop], harch, hidle, rfl⟩

/-- Paced words have the effect of the command sequence, by induction over the words. -/
theorem runEdges_paced {s : State} {words : List (BitVec 10)} {rest : List PortIn} (hi : s.activity = .idle)
    (hin : s.inputs = paced words ++ rest) : ∃ t, runEdges (132 * words.length) s = .next t ∧
      t.arch = s.arch.transactAll words ∧ t.activity = .idle ∧ t.inputs = rest := by
  induction words generalizing s with
  | nil => exact ⟨s, rfl, rfl, hi, hin⟩
  | cons c words ih =>
    rw [paced, List.flatMap_cons, List.append_assoc] at hin
    obtain ⟨t, hrun, harch, hact, htin⟩ := runEdges_offer hi hin
    obtain ⟨u, hrun', harch', hact', huin⟩ := ih hact htin
    refine ⟨u, ?_, ?_, hact', huin⟩
    · rw [List.length_cons, Nat.mul_succ, Nat.add_comm, runEdges_add hrun, hrun']
    · rw [harch', harch]
      rfl

theorem cnt_halves {a : Arch} {n : Nat} (h : a.cnt = BitVec.ofNat 64 n) :
    a.cntLo = BitVec.ofNat 32 n ∧ a.cntHi = BitVec.ofNat 32 (n / 2 ^ 32) :=
  cnt_inj (b := { a with cntLo := BitVec.ofNat 32 n, cntHi := BitVec.ofNat 32 (n / 2 ^ 32) })
    (h.trans (ofNat_append_word n).symm)

theorem length_hashWords (m : List Byte) : (hashWords m).length = m.length + 2 := by
  simp [hashWords, updateWords]

/-- Settles O49: `runEdges_paced` takes HASH to the transaction level, and the ports show the state of
`transactAll_hashWords_spec`. -/
theorem machineHashesEveryMessage : Obligations.MachineHashesEveryMessage := by
  intro s m rest hi hin
  obtain ⟨t, hrun, harch, hact, htin⟩ := runEdges_paced hi hin
  obtain ⟨hh, hcnt, hphase, herr, hcause⟩ := transactAll_hashWords_spec s.arch m
  obtain ⟨hlo, hhi⟩ := cnt_halves hcnt
  refine ⟨t, by rw [← length_hashWords, hrun], htin, ?_⟩
  rw [State.outputs, (ready_iff t).mpr hact, harch, hh, hphase, herr, hcause, hlo, hhi]
  rfl

end Sys2Proof.Machine

namespace Sys2Proof.Machine

/-! ### Several engines -/

/-- Engine `k` of `sys` has made `edges k` edges by itself, and `sys'` is what that leaves. -/
def ranAlone (edges : Nat → Nat) (sys sys' : System) : Prop :=
  sys'.length = sys.length ∧
    ∀ (k : Nat) (s : State), sys[k]? = some s → ∃ t, runEdges (edges k) s = .next t ∧ sys'[k]? = some t

theorem ranAlone_zero (sys : System) : ranAlone (fun _ => 0) sys sys := ⟨rfl, fun _ s hs => ⟨s, rfl, hs⟩⟩

theorem ranAlone_trans {m n : Nat → Nat} {sys sys' sys'' : System} (h : ranAlone m sys sys')
    (h' : ranAlone n sys' sys'') : ranAlone (fun k => n k + m k) sys sys'' := by
  obtain ⟨hlen, hrun⟩ := h
  obtain ⟨hlen', hrun'⟩ := h'
  refine ⟨hlen'.trans hlen, fun k s hs => ?_⟩
  obtain ⟨t, ht, hkt⟩ := hrun k s hs
  obtain ⟨u, hu, hku⟩ := hrun' k t hkt
  exact ⟨u, by simp only [Nat.add_comm (n k), runEdges_add ht, hu], hku⟩

/-- An engine found in `sys'` is what its counterpart in `sys` became. -/
theorem ranAlone_source {edges : Nat → Nat} {sys sys' : System} (h : ranAlone edges sys sys') {k : Nat} {t : State}
    (ht : sys'[k]? = some t) : ∃ s, sys[k]? = some s ∧ runEdges (edges k) s = .next t := by
  obtain ⟨hlen, hrun⟩ := h
  obtain ⟨hk, -⟩ := List.getElem?_eq_some_iff.mp ht
  have hs := List.getElem?_eq_getElem (hlen ▸ hk)
  obtain ⟨t', ht', hkt'⟩ := hrun k _ hs
  obtain rfl : t' = t := Option.some.inj (hkt'.symm.trans ht)
  exact ⟨_, hs, ht'⟩

theorem sysStep_of_none {k : Nat} {sys : System} (h : sys[k]? = none) : sysStep k sys = .next sys := by
  rw [sysStep, h]

theorem sysStep_of_next {k : Nat} {sys : System} {s t : State} (hs : sys[k]? = some s) (ht : step s = .next t) :
    sysStep k sys = .next (sys.set k t) := by
  rw [sysStep, hs]
  simp only [ht]

theorem runEdges_one {s t : State} (h : step s = .next t) : runEdges 1 s = .next t := runEdges_succ_of_next h 0

theorem step_of_runEdges_succ {s t : State} {n : Nat} (h : runEdges (n + 1) s = .next t) : ∃ u, step s = .next u := by
  rw [runEdges] at h
  cases hs : step s with
  | next u => exact ⟨u, rfl⟩
  | fault r => rw [hs] at h; cases h
  | refused r => rw [hs] at h; cases h

theorem step_of_sysStep {k : Nat} {sys sys' : System} {s : State} (h : sysStep k sys = .next sys')
    (hs : sys[k]? = some s) : ∃ t, step s = .next t ∧ sys' = sys.set k t := by
  rw [sysStep, hs] at h
  cases ht : step s with
  | next t => exact ⟨t, rfl, by simp only [ht] at h; cases h; rfl⟩
  | fault r => simp only [ht] at h; cases h
  | refused r => simp only [ht] at h; cases h

/-- One edge of the system is one edge of the engine it names, and none of any other. -/
theorem sysStep_ranAlone {k : Nat} {sys sys' : System} (h : sysStep k sys = .next sys') :
    ranAlone (fun j => if k == j then 1 else 0) sys sys' := by
  cases hk : sys[k]? with
  | none =>
    rw [sysStep_of_none hk] at h
    cases h
    refine ⟨rfl, fun j s hs => ⟨s, ?_, hs⟩⟩
    have hne : k ≠ j := fun hkj => by rw [hkj, hs] at hk; cases hk
    simp only [beq_false_of_ne hne]
    rfl
  | some s =>
    obtain ⟨t, ht, rfl⟩ := step_of_sysStep h hk
    refine ⟨List.length_set, fun j u hu => ?_⟩
    by_cases hkj : k = j
    · subst hkj
      obtain rfl : s = u := Option.some.inj (hk.symm.trans hu)
      obtain ⟨hlt, -⟩ := List.getElem?_eq_some_iff.mp hk
      simp only [beq_self_eq_true]
      exact ⟨t, runEdges_one ht, List.getElem?_set_self hlt⟩
    · simp only [beq_false_of_ne hkj]
      exact ⟨u, rfl, by rw [List.getElem?_set_ne hkj, hu]⟩

theorem sysRun_cons {k : Nat} {sys sys' : System} (h : sysStep k sys = .next sys') (rest : List Nat) :
    sysRun (k :: rest) sys = sysRun rest sys' := by
  rw [sysRun, h]

theorem sysStep_of_sysRun_cons {k : Nat} {rest : List Nat} {sys sys' : System}
    (h : sysRun (k :: rest) sys = .next sys') : ∃ mid, sysStep k sys = .next mid ∧ sysRun rest mid = .next sys' := by
  cases hs : sysStep k sys with
  | next mid => exact ⟨mid, rfl, by rw [← sysRun_cons hs, h]⟩
  | fault r => rw [sysRun, hs] at h; cases h
  | refused r => rw [sysRun, hs] at h; cases h

theorem sysRun_ranAlone {sched : List Nat} {sys sys' : System} (h : sysRun sched sys = .next sys') :
    ranAlone (fun k => sched.count k) sys sys' := by
  induction sched generalizing sys with
  | nil => cases h; exact ranAlone_zero _
  | cons k rest ih =>
    obtain ⟨mid, hstep, hrest⟩ := sysStep_of_sysRun_cons h
    simp only [List.count_cons]
    exact ranAlone_trans (sysStep_ranAlone hstep) (ih hrest)

/-- The system makes an edge when the engine it names, if there is one, can go on. -/
theorem sysStep_answers {k n : Nat} {sys : System}
    (h : ∀ s, sys[k]? = some s → ∃ t, runEdges (n + 1) s = .next t) : ∃ mid, sysStep k sys = .next mid := by
  cases hk : sys[k]? with
  | none => exact ⟨sys, sysStep_of_none hk⟩
  | some s =>
    obtain ⟨t, ht⟩ := h s hk
    obtain ⟨u, hu⟩ := step_of_runEdges_succ ht
    exact ⟨_, sysStep_of_next hk hu⟩

theorem sysRun_answers {sched : List Nat} {sys : System}
    (h : ∀ (k : Nat) (s : State), sys[k]? = some s → ∃ t, runEdges (sched.count k) s = .next t) :
    ∃ sys', sysRun sched sys = .next sys' := by
  induction sched generalizing sys with
  | nil => exact ⟨sys, rfl⟩
  | cons k rest ih =>
    obtain ⟨mid, hstep⟩ := sysStep_answers (k := k) (n := rest.count k) (sys := sys) fun s hs => by
      rw [← List.count_cons_self]
      exact h k s hs
    rw [sysRun_cons hstep]
    refine ih fun j t hj => ?_
    obtain ⟨s, hs, hfirst⟩ := ranAlone_source (sysStep_ranAlone hstep) hj
    obtain ⟨u, hu⟩ := h j s hs
    rw [List.count_cons, Nat.add_comm, runEdges_add hfirst] at hu
    exact ⟨u, hu⟩

/-- Settles O60, by induction over the schedule: each entry adds one edge to the engine it names
(`sysStep_ranAlone`). -/
theorem instancesRunAsIfAlone : Obligations.InstancesRunAsIfAlone :=
  ⟨fun _ _ _ => sysRun_ranAlone, fun _ _ => sysRun_answers⟩

end Sys2Proof.Machine

namespace Sys2Proof.Machine

/-! ### The misuses -/

/-- The misuses of 60_exceptions.md R311, R312 and R314: the cause that a command word raises in a phase. -/
inductive Misuse (p : Phase) (c : BitVec 10) : Cause → Prop
  | update (hop : opField c = 1) (hphase : p = .done) : Misuse p c .updateAfterFinalize
  | finalize (hop : opField c = 2) (hphase : p = .done) : Misuse p c .finalizeTwice
  | reserved (hop : opField c = 3) : Misuse p c .reservedOpcode

theorem misuse_exists {p : Phase} {c : BitVec 10} (h0 : opField c ≠ 0) (h : p = .done ∨ opField c = 3) :
    ∃ k, Misuse p c k := by
  rcases opField_cases c with hop | hop | hop | hop
  · exact absurd hop h0
  · exact ⟨_, .update hop (h.resolve_right (by simp [hop]))⟩
  · exact ⟨_, .finalize hop (h.resolve_right (by simp [hop]))⟩
  · exact ⟨_, .reserved hop⟩

theorem exec_update_of_done {s : State} (h : s.arch.phase = .done) (x : Byte) :
    exec (.update x) s = .next (s.mapArch (·.raiseMisuse .updateAfterFinalize)) := by
  rw [exec_update, execUpdate, h]

theorem exec_finalize_of_done {s : State} (h : s.arch.phase = .done) (d : Byte) :
    exec (.finalize d) s = .next (s.mapArch (·.raiseMisuse .finalizeTwice)) := by
  rw [exec_finalize, execFinalize, h]

theorem exec_rsvd (d : Byte) (s : State) :
    exec (.rsvd d) s = .next (s.mapArch (·.raiseMisuse .reservedOpcode)) := rfl

/-- The misuse entry, field by field (60_exceptions.md R313). -/
theorem mapArch_raiseMisuse (s : State) (k : Cause) : s.mapArch (·.raiseMisuse k) =
    { s with arch := { s.arch with err := true, cause := if s.arch.err then s.arch.cause else k } } := by
  rw [State.mapArch, raiseMisuse_frame, raiseMisuse_err, raiseMisuse_cause]

/-- Settles O11. -/
theorem updateInPhaseDoneIsMisuse : Obligations.UpdateInPhaseDoneIsMisuse := by
  intro s x hdone
  rw [exec_update_of_done hdone, mapArch_raiseMisuse]

/-- Settles O12: the misuse entry leaves the chaining words, PHASE and the sub-phase, so the ports show the digest. -/
theorem finalizeInPhaseDoneIsMisuse : Obligations.FinalizeInPhaseDoneIsMisuse := by
  intro s d hdone
  rw [exec_finalize_of_done hdone, mapArch_raiseMisuse]
  refine ⟨rfl, fun t ht => ?_⟩
  cases ht
  exact ⟨rfl, fun hready => by rw [State.outputs, hdone]; exact Bool.and_eq_true_iff.mpr ⟨hready, rfl⟩⟩

/-- Settles O13: the mask leaves the field `op`, which is that of the reserved word. -/
theorem reservedWordIsMisuse : Obligations.ReservedWordIsMisuse := by
  intro s c hc
  have hop : opField c = 3 := by rw [← opField_and_mask, hc]; rfl
  exact ⟨dataField c, congrArg _ (decodeCmd_of_rsvd hop), by rw [exec_rsvd, mapArch_raiseMisuse]⟩

theorem exec_of_misuse {s : State} {c : BitVec 10} {k : Cause} (h : Misuse s.arch.phase c k) :
    exec (decodeCmd c) s = .next (s.mapArch (·.raiseMisuse k)) := by
  cases h with
  | update hop hphase => rw [decodeCmd_of_update hop, exec_update_of_done hphase]
  | finalize hop hphase => rw [decodeCmd_of_finalize hop, exec_finalize_of_done hphase]
  | reserved hop => rw [decodeCmd_of_rsvd hop, exec_rsvd]

/-! ### ERR and ERR_CAUSE along a run -/

theorem step_of_accepted {s : State} {c : BitVec 10} (h : s.accepted = some c) :
    step s = exec (decodeCmd c) s.sampled := by
  have hi := activity_of_accepted h
  rw [State.accepted] at h
  split at h
  next hcond =>
    simp only [Bool.and_eq_true, Bool.not_eq_true'] at hcond
    obtain ⟨⟨hr, -⟩, hv⟩ := hcond
    rw [step_of_command hr hi hv, Option.some.inj h]
  next => cases h

theorem opField_ne_zero_of_accepted {s : State} {c : BitVec 10} (h : s.accepted = some c) (hres : s.resets = false) :
    opField c ≠ 0 := by
  intro hop
  rw [State.resets, accepts_of_accepted h, hop, beq_self_eq_true, Bool.or_true] at hres
  cases hres

theorem endCompress_err_cause (s : State) :
    s.endCompress.arch.err = s.arch.err ∧ s.endCompress.arch.cause = s.arch.cause := by
  rw [endCompress_arch]; split <;> exact ⟨rfl, rfl⟩

/-- What an edge that does not reset the engine does to ERR and ERR_CAUSE: nothing, or it accepts a misuse. -/
theorem err_cause_or_misuse_of_step {s t : State} (h : step s = .next t) (hres : s.resets = false) :
    (t.arch.err = s.arch.err ∧ t.arch.cause = s.arch.cause) ∨
    ∃ c k, s.accepted = some c ∧ Misuse s.arch.phase c k ∧ t.arch = s.arch.raiseMisuse k := by
  cases edge_of_step h with
  | reset hres' => rw [hres'] at hres; cases hres
  | hold => exact .inl ⟨rfl, rfl⟩
  | pad2 => exact .inl ⟨padFresh_err _, padFresh_cause _⟩
  | stepped => exact .inl ⟨rfl, rfl⟩
  | feedForward => exact .inl (endCompress_err_cause _)
  | @command c _ _ hacc _ heff =>
    cases heff with
    | update => exact .inl ⟨rfl, rfl⟩
    | updateFull => exact .inl ⟨rfl, rfl⟩
    | finalizeOne => exact .inl ⟨padOne_err _, padOne_cause _⟩
    | finalizeTwo => exact .inl ⟨padFirst_err _, padFirst_cause _⟩
    | misuse _ hwhen =>
      obtain ⟨k, hk⟩ := misuse_exists (opField_ne_zero_of_accepted hacc hres) hwhen
      rw [step_of_accepted hacc, exec_of_misuse hk] at h
      exact .inr ⟨c, k, hacc, hk, by rw [← Host.Outcome.next.inj h]; rfl⟩

/-- Settles O15: the misuse entry keeps the first cause, and nothing else writes the two registers. -/
theorem errorIsStickyAndFirstCauseKept : Obligations.ErrorIsStickyAndFirstCauseKept := by
  intro s t h hres
  rcases err_cause_or_misuse_of_step h hres with ⟨herr, hcause⟩ | ⟨c, k, hacc, hk, harch⟩
  · refine ⟨fun hset => ⟨herr.trans hset, hcause⟩, fun hclear hset => ?_⟩
    rw [herr, hclear] at hset
    cases hset
  · rw [harch, raiseMisuse_err, raiseMisuse_cause]
    refine ⟨fun hset => ⟨rfl, if_pos hset⟩, fun hclear _ => ?_⟩
    simp only [accepts_of_accepted hacc, hclear]
    cases hk with
    | update hop hphase => exact .inl ⟨beq_iff_eq.mpr hop, hphase, rfl⟩
    | finalize hop hphase => exact .inr (.inl ⟨beq_iff_eq.mpr hop, hphase, rfl⟩)
    | reserved hop => exact .inr (.inr ⟨beq_iff_eq.mpr hop, rfl⟩)

/-! ### The counter along a run -/

theorem commandEffect_cnt {s t : State} {c : BitVec 10} (h : s.CommandEffect c t) : t.arch.cnt =
    if opField c == 1 && s.arch.phase == .absorb then s.arch.cnt + 1 else s.arch.cnt := by
  cases h with
  | update hop hphase => rw [hop, hphase]; exact cnt_writeByte _ _
  | updateFull hop hphase => rw [hop, hphase]; exact cnt_writeByte _ _
  | finalizeOne hop => rw [hop]; exact cnt_congr (padOne_cntLo _) (padOne_cntHi _)
  | finalizeTwo hop => rw [hop]; exact cnt_congr (padFirst_cntLo _) (padFirst_cntHi _)
  | @misuse k _ hwhen =>
    have hnone : (opField c == 1 && s.arch.phase == .absorb) = false := by
      rcases hwhen with hphase | hop
      · rw [hphase]; exact Bool.and_false _
      · rw [hop]; rfl
    rw [hnone]
    exact cnt_congr (raiseMisuse_cntLo _ k) (raiseMisuse_cntHi _ k)

theorem endCompress_cnt (s : State) : s.endCompress.arch.cnt = s.arch.cnt := by
  rw [endCompress_arch]; split <;> rfl

theorem cnt_reset : Arch.reset.cnt = 0 := by decide

/-- Settles O36, over the cases of an edge. -/
theorem counterMovesOnlyByUpdateAndReset : Obligations.CounterMovesOnlyByUpdateAndReset := by
  intro s t h
  have hkept (hres : s.resets = false) (hacc : s.accepted = none) (hcnt : t.arch.cnt = s.arch.cnt) :
      t.arch.cnt = if s.resets then 0 else if s.accepts 1 && s.arch.phase == .absorb then s.arch.cnt + 1
        else s.arch.cnt := by
    rw [hres, accepts_of_accepted_none hacc]
    exact hcnt
  cases edge_of_step h with
  | reset hres => rw [if_pos hres, toReset_arch, cnt_reset]
  | hold hres _ hacc => exact hkept hres hacc rfl
  | command hres hacc _ heff =>
    rw [hres, accepts_of_accepted hacc]
    exact commandEffect_cnt (s := s.sampled) heff
  | pad2 hres hpad =>
    exact hkept hres (accepted_of_busy (by simp [hpad])) (cnt_congr (padFresh_cntLo _) (padFresh_cntHi _))
  | stepped hres hc => exact hkept hres (accepted_of_busy (compressing_iff.mp hc).1) rfl
  | feedForward hres hc => exact hkept hres (accepted_of_busy (compressing_iff.mp hc).1) (endCompress_cnt _)

/-! ### No step stops -/

theorem exec_decodeCmd_answers (c : BitVec 10) (s : State) : ∃ t, exec (decodeCmd c) s = .next t := by
  rcases exec_command_cases s c with ⟨-, t, he, -⟩ | ⟨-, t, k, -, he, -⟩ | ⟨-, he, -⟩
  · exact ⟨_, he⟩
  · exact ⟨_, he⟩
  · exact ⟨_, he⟩

theorem exec_of_decodeSeq_answers {v : BitVec 7} {i : Instr} (h : decodeSeq v = .ok i) (s : State) :
    ∃ t, exec i s = .next t := by
  rcases exec_of_decodeSeq h with ⟨-, x0, f, k, const, amount, he⟩ | ⟨-, rfl⟩
  · exact ⟨_, he s⟩
  · exact ⟨_, exec_feedfwd s⟩

/-- Every instruction completes: it is the one its code word decodes to, a command word or a value of STEP. -/
theorem exec_answers (i : Instr) (s : State) : ∃ t, exec i s = .next t := by
  have hdecode := decode_encode i
  cases hw : encode i with
  | cmd c =>
    rw [hw] at hdecode
    cases hdecode
    exact exec_decodeCmd_answers c s
  | seq v =>
    rw [hw] at hdecode
    exact exec_of_decodeSeq_answers hdecode s

theorem decode_of_event_run {s : State} {w : CodeWord} (hle : s.stepReg.toNat ≤ 64) (h : s.event = .run w) :
    ∃ i, decode w = .ok i := by
  have hw : (∃ c, w = .cmd c) ∨ w = .seq s.stepReg := by
    rw [State.event] at h
    split at h
    · cases h
    · cases hact : s.activity with
      | idle =>
        simp only [hact] at h
        split at h <;> cases h
        exact .inl ⟨_, rfl⟩
      | pad2 => simp only [hact] at h; cases h
      | _ => simp only [hact] at h; cases h; exact .inr rfl
  rcases hw with ⟨c, rfl⟩ | rfl
  · exact ⟨_, rfl⟩
  · exact decodeSeq_ok s.stepReg hle

/-- Settles O35: STEP is at most 64 in a state that meets the invariant, so the code word of an edge decodes. -/
theorem noStepStops : Obligations.NoStepStops := by
  refine ⟨fun s hinv => ?_, exec_answers⟩
  obtain ⟨-, -, hle, -⟩ := (inv_iff s).mp hinv
  cases hevent : s.event with
  | reset => exact ⟨_, by rw [step, hevent]⟩
  | hold => exact ⟨_, by rw [step, hevent]⟩
  | pad2 => exact ⟨_, by rw [step, hevent]⟩
  | run w =>
    obtain ⟨i, hi⟩ := decode_of_event_run hle hevent
    obtain ⟨t, ht⟩ := exec_answers i s.sampled
    exact ⟨t, by rw [step, hevent]; simp only [hi, ht]⟩

/-! ### Command sequences -/

theorem transact_of_misuse {a : Arch} {c : BitVec 10} {k : Cause} (h : Misuse a.phase c k) :
    a.transact c = a.raiseMisuse k := by
  cases h with
  | update hop hphase => rw [transact_of_update hop, update_of_done hphase]
  | finalize hop hphase => rw [transact_of_finalize hop, finalize_of_done hphase]
  | reserved hop => exact transact_of_rsvd hop a

theorem sequencedFrom_of_reset {c : BitVec 10} (hop : opField c = 0) (done : Bool) (rest : List (BitVec 10)) :
    sequencedFrom done (c :: rest) = sequencedFrom false rest := by
  rw [sequencedFrom, hop]; rfl

theorem sequencedFrom_of_update {c : BitVec 10} (hop : opField c = 1) (done : Bool) (rest : List (BitVec 10)) :
    sequencedFrom done (c :: rest) = (!done && sequencedFrom done rest) := by
  rw [sequencedFrom, hop]; rfl

theorem sequencedFrom_of_finalize {c : BitVec 10} (hop : opField c = 2) (done : Bool) (rest : List (BitVec 10)) :
    sequencedFrom done (c :: rest) = (!done && sequencedFrom true rest) := by
  rw [sequencedFrom, hop]; rfl

theorem sequencedFrom_of_rsvd {c : BitVec 10} (hop : opField c = 3) (done : Bool) (rest : List (BitVec 10)) :
    sequencedFrom done (c :: rest) = false := by
  rw [sequencedFrom, hop]; rfl

/-- A misuse ends the correct sequences. -/
theorem sequencedFrom_of_misuse {p : Phase} {c : BitVec 10} {k : Cause} (h : Misuse p c k)
    (rest : List (BitVec 10)) : sequencedFrom p.bit (c :: rest) = false := by
  cases h with
  | update hop hphase => rw [sequencedFrom_of_update hop, hphase]; rfl
  | finalize hop hphase => rw [sequencedFrom_of_finalize hop, hphase]; rfl
  | reserved hop => exact sequencedFrom_of_rsvd hop _ _

/-- A word that is neither RESET nor a misuse is an UPDATE or a FINALIZE in phase ABSORB. -/
theorem absorb_of_not_misuse {p : Phase} {c : BitVec 10} (h0 : opField c ≠ 0) (h : ¬ ∃ k, Misuse p c k) :
    p = .absorb ∧ (opField c = 1 ∨ opField c = 2) := by
  have hwhen : ¬ (p = .done ∨ opField c = 3) := fun hw => h (misuse_exists h0 hw)
  obtain ⟨hdone, h3⟩ := not_or.mp hwhen
  refine ⟨?_, ?_⟩
  · cases p with
    | absorb => rfl
    | done => exact absurd rfl hdone
  · rcases opField_cases c with hop | hop | hop | hop
    · exact absurd hop h0
    · exact .inl hop
    · exact .inr hop
    · exact absurd hop h3

/-- A word that is neither RESET nor a misuse leaves ERR and ERR_CAUSE, and the rest of the sequence is judged from
the phase it leaves. -/
theorem transact_of_not_misuse {a : Arch} {c : BitVec 10} (h0 : opField c ≠ 0) (h : ¬ ∃ k, Misuse a.phase c k) :
    (a.transact c).err = a.err ∧ (a.transact c).cause = a.cause ∧
      ∀ rest, sequencedFrom a.phase.bit (c :: rest) = sequencedFrom (a.transact c).phase.bit rest := by
  obtain ⟨hphase, hop | hop⟩ := absorb_of_not_misuse h0 h
  · obtain ⟨herr, hcause⟩ := absorb_err_cause a (dataField c)
    rw [transact_of_update hop, update_of_absorb hphase]
    refine ⟨herr, hcause, fun rest => ?_⟩
    rw [sequencedFrom_of_update hop, phase_absorb, hphase]
    rfl
  · rw [transact_of_finalize hop, finalize_of_absorb hphase, padAndCompress_frame]
    refine ⟨rfl, rfl, fun rest => ?_⟩
    rw [sequencedFrom_of_finalize hop, hphase]
    rfl

theorem transactAll_cons (a : Arch) (c : BitVec 10) (words : List (BitVec 10)) :
    a.transactAll (c :: words) = (a.transact c).transactAll words := rfl

/-- ERR is sticky over every sequence without a RESET (10_state.md R41). -/
theorem err_transactAll_of_err {a : Arch} (herr : a.err = true) {words : List (BitVec 10)}
    (hwords : ∀ c ∈ words, opField c ≠ 0) : (a.transactAll words).err = true := by
  induction words generalizing a with
  | nil => exact herr
  | cons c words ih =>
    obtain ⟨h0, hrest⟩ := List.forall_mem_cons.mp hwords
    rw [transactAll_cons]
    refine ih ?_ hrest
    by_cases hm : ∃ k, Misuse a.phase c k
    · obtain ⟨k, hk⟩ := hm
      rw [transact_of_misuse hk, raiseMisuse_err]
    · obtain ⟨herr', -⟩ := transact_of_not_misuse h0 hm
      exact herr'.trans herr

/-- A correctly sequenced rest of a sequence raises no misuse. -/
theorem transactAll_clear_of_sequenced {a : Arch} (herr : a.err = false) (hcause : a.cause = .noCause)
    {words : List (BitVec 10)} (h : sequencedFrom a.phase.bit words = true) :
    (a.transactAll words).err = false ∧ (a.transactAll words).cause = .noCause := by
  induction words generalizing a with
  | nil => exact ⟨herr, hcause⟩
  | cons c words ih =>
    rw [transactAll_cons]
    by_cases h0 : opField c = 0
    · rw [sequencedFrom_of_reset h0] at h
      rw [transact_of_reset h0]
      exact ih rfl rfl h
    · by_cases hm : ∃ k, Misuse a.phase c k
      · obtain ⟨k, hk⟩ := hm
        rw [sequencedFrom_of_misuse hk] at h
        cases h
      · obtain ⟨herr', hcause', hseq⟩ := transact_of_not_misuse h0 hm
        rw [hseq] at h
        exact ih (herr'.trans herr) (hcause'.trans hcause) h

/-- Without a RESET a sequence that is not correct raises a misuse, and ERR stays. -/
theorem sequenced_of_transactAll_clear {a : Arch} {words : List (BitVec 10)} (hwords : ∀ c ∈ words, opField c ≠ 0)
    (h : (a.transactAll words).err = false) : sequencedFrom a.phase.bit words = true := by
  induction words generalizing a with
  | nil => rfl
  | cons c words ih =>
    obtain ⟨h0, hrest⟩ := List.forall_mem_cons.mp hwords
    rw [transactAll_cons] at h
    by_cases hm : ∃ k, Misuse a.phase c k
    · obtain ⟨k, hk⟩ := hm
      rw [transact_of_misuse hk, err_transactAll_of_err (raiseMisuse_err a k) hrest] at h
      cases h
    · obtain ⟨-, -, hseq⟩ := transact_of_not_misuse h0 hm
      rw [hseq]
      exact ih hrest h

/-- Settles O44, by induction over the words: the reset state is in phase ABSORB with no error. -/
theorem correctSequencesNeverErr : Obligations.CorrectSequencesNeverErr := by
  have hclear {words : List (BitVec 10)} (h : correctlySequenced words = true) :=
    transactAll_clear_of_sequenced (a := Arch.reset) rfl rfl h
  exact ⟨fun _ => hclear, fun _ hwords => ⟨sequenced_of_transactAll_clear hwords, fun h => (hclear h).1⟩⟩

end Sys2Proof.Machine

namespace Sys2Proof.Machine

/-! ### Every command completes -/

/-- The edges until the engine is ready again if `rst` is not sampled, in the reference decomposition
(70_reset_and_hazards.md R358, R359): 65 for a COMPRESS, 1 for PAD2. -/
def State.edgesLeft (s : State) : Nat :=
  match s.activity with
  | .idle => 0
  | .compU => 65 - s.stepReg.toNat
  | .comp1 => (65 - s.stepReg.toNat) + 66
  | .pad2 => 66
  | .compT => 65 - s.stepReg.toNat

theorem edgesLeft_of_idle {s : State} (hi : s.activity = .idle) : s.edgesLeft = 0 := by rw [State.edgesLeft, hi]

theorem edgesLeft_of_pad2 {s : State} (hp : s.activity = .pad2) : s.edgesLeft = 66 := by rw [State.edgesLeft, hp]

theorem edgesLeft_of_compressing {s : State} (hc : s.compressing = true) :
    s.edgesLeft = (65 - s.stepReg.toNat) + if s.activity = .comp1 then 66 else 0 := by
  obtain ⟨hidle, hpad⟩ := compressing_iff.mp hc
  rw [State.edgesLeft]
  cases ha : s.activity with
  | idle => exact absurd ha hidle
  | pad2 => exact absurd ha hpad
  | compU => rfl
  | comp1 => rfl
  | compT => rfl

theorem edgesLeft_le (s : State) : s.edgesLeft ≤ 131 := by
  rw [State.edgesLeft]
  split <;> omega

theorem edgesLeft_endCompress {s : State} (hc : s.compressing = true) :
    s.endCompress.edgesLeft = if s.activity = .comp1 then 66 else 0 := by
  have hact := endCompress_activity s
  obtain ⟨-, hpad⟩ := compressing_iff.mp hc
  by_cases h1 : s.activity = .comp1
  · rw [if_pos (.inl h1)] at hact
    rw [if_pos h1, edgesLeft_of_pad2 hact]
  · rw [if_neg (by simp [h1, hpad])] at hact
    rw [if_neg h1, edgesLeft_of_idle hact]

theorem edgesLeft_pos {s : State} (hle : s.stepReg.toNat ≤ 64) (hbusy : s.activity ≠ .idle) : 0 < s.edgesLeft := by
  by_cases hp : s.activity = .pad2
  · rw [edgesLeft_of_pad2 hp]; decide
  · rw [edgesLeft_of_compressing (compressing_iff.mpr ⟨hbusy, hp⟩)]; omega

/-- An edge of a busy engine takes one sample and is one of the edges left. -/
theorem edgesLeft_of_step {s t : State} (hr : s.sample.rst = false) (hbusy : s.activity ≠ .idle)
    (h : step s = .next t) : t.inputs = s.inputs.tail ∧ s.edgesLeft = t.edgesLeft + 1 := by
  rcases step_cases h with ⟨hrst, -⟩ | ⟨-, hi, -⟩ | ⟨-, hi, -⟩ | ⟨-, hp, rfl⟩ |
    ⟨-, hc, hlt, x0, f, k, const, amount, rfl⟩ | ⟨-, hc, h64, rfl⟩
  · rw [hr] at hrst; cases hrst
  · exact absurd hi hbusy
  · exact absurd hi hbusy
  · exact ⟨rfl, edgesLeft_of_pad2 hp⟩
  · have hnext : (s.stepReg + 1).toNat = s.stepReg.toNat + 1 := by bv_omega
    refine ⟨rfl, ?_⟩
    rw [edgesLeft_of_compressing hc,
      edgesLeft_of_compressing (s := s.sampled.seqStep x0 f k const amount (s.stepReg + 1)) hc, seqStep_stepReg, hnext,
      seqStep_activity, sampled_activity]
    omega
  · refine ⟨endCompress_inputs _, ?_⟩
    rw [edgesLeft_of_compressing hc, edgesLeft_endCompress (s := s.sampled.mapArch (·.feedForward s.acc)) hc, h64,
      mapArch_activity, sampled_activity, Nat.add_comm]
    rfl

/-- The engine is ready when no edge is left: induction on their number, along which the invariant keeps every step
answering. -/
theorem ready_after_edgesLeft {n : Nat} {s : State} (hinv : s.inv = true) (hn : s.edgesLeft = n)
    (hr : noRst n s.inputs = true) : ∃ t, runEdges n s = .next t ∧ t.ready = true := by
  induction n generalizing s with
  | zero =>
    obtain ⟨-, -, hle, -⟩ := (inv_iff s).mp hinv
    have hi : s.activity = .idle := by
      by_contra hbusy
      exact absurd hn (edgesLeft_pos hle hbusy).ne'
    exact ⟨s, rfl, by rw [State.ready, hi]; rfl⟩
  | succ n ih =>
    have hbusy : s.activity ≠ .idle := fun hi => by rw [edgesLeft_of_idle hi] at hn; cases hn
    obtain ⟨u, hu⟩ := noStepStops.1 s hinv
    obtain ⟨hin, hleft⟩ := edgesLeft_of_step (sample_rst_of_noRst hr) hbusy hu
    have hrest : noRst n u.inputs = true := by
      rw [Nat.add_comm, noRst_add, Bool.and_eq_true, List.drop_one, ← hin] at hr
      exact hr.2
    obtain ⟨t, hrun, hready⟩ := ih (everyStepKeepsTheInvariant s u hinv hu) (by omega) hrest
    exact ⟨t, by rw [runEdges_succ_of_next hu, hrun], hready⟩

/-- Settles O32: the number of edges is `State.edgesLeft`, at most 65 + 1 + 65. -/
theorem everyCommandCompletes : Obligations.EveryCommandCompletes := fun s hinv hr =>
  ⟨s.edgesLeft, edgesLeft_le s, ready_after_edgesLeft hinv rfl (noRst_of_le (edgesLeft_le s) hr)⟩

end Sys2Proof.Machine

namespace Sys2Proof.Machine

/-! ### Control does not depend on data -/

/-- The architectural part of `State.sameControl`: the counter and the flags agree. -/
def Arch.sameControl (a b : Arch) : Prop :=
  a.cntLo = b.cntLo ∧ a.cntHi = b.cntHi ∧ a.phase = b.phase ∧ a.err = b.err ∧ a.cause = b.cause

theorem sameControl_iff (s t : State) : s.sameControl t ↔ s.arch.sameControl t.arch ∧
    s.activity = t.activity ∧ s.stepReg = t.stepReg ∧ s.fresh = t.fresh := by
  simp only [State.sameControl, Arch.sameControl, and_assoc]

section
variable {a b : Arch} (h : a.sameControl b)
include h

theorem arch_sameControl_used : a.used = b.used := used_congr h.1

theorem arch_sameControl_phase : a.phase = b.phase := by
  obtain ⟨-, -, hphase, -⟩ := h
  exact hphase

/-- The byte of an UPDATE goes to BUF only; the counter adds 1 to its own halves. -/
theorem arch_sameControl_writeByte (x y : Byte) : (a.writeByte x).sameControl (b.writeByte y) := by
  obtain ⟨hlo, hhi, hflags⟩ := h
  exact ⟨by rw [writeByte_cntLo, writeByte_cntLo, hlo], by rw [writeByte_cntHi, writeByte_cntHi, hlo, hhi], hflags⟩

theorem arch_sameControl_padOne : a.padOne.sameControl b.padOne := by simpa [Arch.sameControl] using h

theorem arch_sameControl_padFirst : a.padFirst.sameControl b.padFirst := by simpa [Arch.sameControl] using h

theorem arch_sameControl_padFresh : a.padFresh.sameControl b.padFresh := by simpa [Arch.sameControl] using h

theorem arch_sameControl_feedForward (v w : Accum) : (a.feedForward v).sameControl (b.feedForward w) := h

theorem arch_sameControl_raiseMisuse (k : Cause) : (a.raiseMisuse k).sameControl (b.raiseMisuse k) := by
  obtain ⟨hlo, hhi, hphase, herr, hcause⟩ := h
  simp [Arch.sameControl, hlo, hhi, hphase, herr, hcause]

end

section
variable {s t : State} (h : s.sameControl t)
include h

theorem sameControl_arch : s.arch.sameControl t.arch := by
  obtain ⟨harch, -⟩ := (sameControl_iff s t).mp h
  exact harch

theorem sameControl_activity : s.activity = t.activity := by
  obtain ⟨-, hact, -⟩ := (sameControl_iff s t).mp h
  exact hact

theorem sameControl_stepReg : s.stepReg = t.stepReg := by
  obtain ⟨-, -, hstep, -⟩ := (sameControl_iff s t).mp h
  exact hstep

theorem sameControl_compressing : s.compressing = t.compressing := by
  rw [State.compressing, State.compressing, sameControl_activity h]

theorem sameControl_sampled : s.sampled.sameControl t.sampled := h

theorem sameControl_mapArch {f g : Arch → Arch} (harch : (f s.arch).sameControl (g t.arch)) :
    (s.mapArch f).sameControl (t.mapArch g) := by
  obtain ⟨-, hrest⟩ := (sameControl_iff s t).mp h
  exact (sameControl_iff _ _).mpr ⟨harch, hrest⟩

theorem sameControl_startCompress (k : Activity) : (s.startCompress k).sameControl (t.startCompress k) := by
  obtain ⟨harch, -, -, hfresh⟩ := (sameControl_iff s t).mp h
  exact (sameControl_iff _ _).mpr ⟨harch, rfl, rfl, hfresh⟩

theorem sameControl_seqStep (x y : WReg) (f g : Word → Word → Word → Word) (i j : BitVec 4) (v w : Word)
    (m n : Nat) (next : BitVec 7) :
    (s.seqStep x f i v m next).sameControl (t.seqStep y g j w n next) := by
  obtain ⟨harch, hact, -, hfresh⟩ := (sameControl_iff s t).mp h
  exact (sameControl_iff _ _).mpr ⟨harch, hact, rfl, hfresh⟩

/-- The free value drawn for STEP is chosen by `fresh` alone (log entry 4). -/
theorem sameControl_dropSequencer : s.dropSequencer.sameControl t.dropSequencer := by
  obtain ⟨harch, hact, -, hfresh⟩ := (sameControl_iff s t).mp h
  exact (sameControl_iff _ _).mpr ⟨harch, hact, by rw [State.dropSequencer, State.dropSequencer, hfresh],
    by rw [dropSequencer_fresh, dropSequencer_fresh, hfresh]⟩

theorem sameControl_toReset : s.toReset.sameControl t.toReset := by
  obtain ⟨-, -, hstep, hfresh⟩ := (sameControl_iff _ _).mp (sameControl_dropSequencer h)
  exact (sameControl_iff _ _).mpr ⟨⟨rfl, rfl, rfl, rfl, rfl⟩, rfl, hstep, hfresh⟩

theorem sameControl_endCompress : s.endCompress.sameControl t.endCompress := by
  have hdrop := sameControl_dropSequencer h
  obtain ⟨⟨hlo, hhi, hphase, hflags⟩, -, hstep, hfresh⟩ := (sameControl_iff _ _).mp hdrop
  rw [State.endCompress, State.endCompress, sameControl_activity h]
  cases t.activity with
  | idle => exact hdrop
  | pad2 => exact hdrop
  | compU => exact (sameControl_iff _ _).mpr ⟨⟨hlo, hhi, hphase, hflags⟩, rfl, hstep, hfresh⟩
  | comp1 => exact (sameControl_iff _ _).mpr ⟨⟨hlo, hhi, hphase, hflags⟩, rfl, hstep, hfresh⟩
  | compT => exact (sameControl_iff _ _).mpr ⟨⟨hlo, hhi, rfl, hflags⟩, rfl, hstep, hfresh⟩

theorem sameControl_runPad2 : s.runPad2.sameControl t.runPad2 :=
  sameControl_startCompress (sameControl_mapArch h (arch_sameControl_padFresh (sameControl_arch h))) _

theorem sameControl_execUpdate (x y : Byte) : ∃ s' t', exec (.update x) s = .next s' ∧
    exec (.update y) t = .next t' ∧ s'.sameControl t' := by
  have harch := sameControl_arch h
  have hp' := arch_sameControl_phase harch
  have hwrite := sameControl_mapArch (f := (·.writeByte x)) (g := (·.writeByte y)) h
    (arch_sameControl_writeByte harch x y)
  cases hp : s.arch.phase with
  | done =>
    exact ⟨_, _, exec_update_of_done hp x, exec_update_of_done (hp' ▸ hp) y,
      sameControl_mapArch h (arch_sameControl_raiseMisuse harch _)⟩
  | absorb =>
    have hused' := arch_sameControl_used harch
    by_cases hused : s.arch.used = 63
    · exact ⟨_, _, exec_update_of_eq hp hused x, exec_update_of_eq (hp' ▸ hp) (hused' ▸ hused) y,
        sameControl_startCompress hwrite _⟩
    · exact ⟨_, _, exec_update_of_ne hp hused x, exec_update_of_ne (hp' ▸ hp) (hused' ▸ hused) y, hwrite⟩

theorem sameControl_execFinalize (d e : Byte) : ∃ s' t', exec (.finalize d) s = .next s' ∧
    exec (.finalize e) t = .next t' ∧ s'.sameControl t' := by
  have harch := sameControl_arch h
  have hp' := arch_sameControl_phase harch
  cases hp : s.arch.phase with
  | done =>
    exact ⟨_, _, exec_finalize_of_done hp d, exec_finalize_of_done (hp' ▸ hp) e,
      sameControl_mapArch h (arch_sameControl_raiseMisuse harch _)⟩
  | absorb =>
    have hused' := arch_sameControl_used harch
    rcases Nat.lt_or_ge s.arch.used.toNat 56 with hlt | hge
    · exact ⟨_, _, exec_finalize_of_le hp (Nat.le_of_lt_succ hlt) d,
        exec_finalize_of_le (hp' ▸ hp) (hused' ▸ Nat.le_of_lt_succ hlt) e,
        sameControl_startCompress (sameControl_mapArch h (arch_sameControl_padOne harch)) _⟩
    · exact ⟨_, _, exec_finalize_of_ge hp hge d, exec_finalize_of_ge (hp' ▸ hp) (hused' ▸ hge) e,
        sameControl_startCompress (sameControl_mapArch h (arch_sameControl_padFirst harch)) _⟩

/-- Command words with one operation code, whatever their data fields. -/
theorem sameControl_exec_command {c d : BitVec 10} (hop : opField c = opField d) :
    ∃ s' t', exec (decodeCmd c) s = .next s' ∧ exec (decodeCmd d) t = .next t' ∧ s'.sameControl t' := by
  rcases opField_cases c with hc | hc | hc | hc
  · rw [decodeCmd_of_reset hc, decodeCmd_of_reset (hop ▸ hc)]
    exact ⟨_, _, exec_reset _ s, exec_reset _ t, sameControl_toReset h⟩
  · rw [decodeCmd_of_update hc, decodeCmd_of_update (hop ▸ hc)]
    exact sameControl_execUpdate h _ _
  · rw [decodeCmd_of_finalize hc, decodeCmd_of_finalize (hop ▸ hc)]
    exact sameControl_execFinalize h _ _
  · rw [decodeCmd_of_rsvd hc, decodeCmd_of_rsvd (hop ▸ hc)]
    exact ⟨_, _, exec_rsvd _ s, exec_rsvd _ t,
      sameControl_mapArch h (arch_sameControl_raiseMisuse (sameControl_arch h) _)⟩

end

/-- Settles O42, over the cases of a step: each is chosen by control alone, so the other state is in the same case. -/
theorem transitionsIgnoreTheData : Obligations.TransitionsIgnoreTheData := by
  intro s t s' h hrst hvalid hop hstep
  have hact := sameControl_activity h
  have hcomp := sameControl_compressing h
  rcases step_cases hstep with ⟨hr, rfl⟩ | ⟨hr, hi, hv, rfl⟩ | ⟨hr, hi, hv, he⟩ | ⟨hr, hp, rfl⟩ |
    ⟨hr, hc, hlt, x0, f, k, const, amount, rfl⟩ | ⟨hr, hc, h64, rfl⟩
  · exact ⟨_, step_of_rst (hrst ▸ hr), sameControl_toReset (sameControl_sampled h)⟩
  · exact ⟨_, step_of_hold (hrst ▸ hr) (hact ▸ hi) (hvalid ▸ hv), sameControl_sampled h⟩
  · obtain ⟨u, t', hu, ht', hsame⟩ := sameControl_exec_command (sameControl_sampled h) hop
    obtain rfl : u = s' := Host.Outcome.next.inj (hu.symm.trans he)
    exact ⟨t', (step_of_command (hrst ▸ hr) (hact ▸ hi) (hvalid ▸ hv)).trans ht', hsame⟩
  · exact ⟨_, step_of_pad2 (hrst ▸ hr) (hact ▸ hp), sameControl_runPad2 (sameControl_sampled h)⟩
  · rw [sameControl_stepReg h] at hlt ⊢
    obtain ⟨i, hi⟩ := decodeSeq_ok t.stepReg hlt.le
    rcases exec_of_decodeSeq hi with ⟨-, y0, g, j, const', amount', he⟩ | ⟨h64, -⟩
    · exact ⟨_, (step_of_compressing (hrst ▸ hr) (hcomp ▸ hc) hi).trans (he _),
        sameControl_seqStep (sameControl_sampled h) ..⟩
    · rw [h64] at hlt; exact absurd hlt (by decide)
  · refine ⟨_, step_of_stepReg_64 (hcomp ▸ hc) (sameControl_stepReg h ▸ h64) (hrst ▸ hr), ?_⟩
    exact sameControl_endCompress (sameControl_mapArch (sameControl_sampled h)
      (arch_sameControl_feedForward (sameControl_arch h) _ _))

end Sys2Proof.Machine
